-- ==== Sys2Proof/Config.lean ====
section
/-! DEFINITION. What an implementation of the block fixes: the one parameter the spec leaves open. -/

namespace Sys2Proof

/-- HAS_RAW_MODE (00_scope.md R7; 92_eei_decisions.md D24, OPEN): whether the raw-only layout is
implemented. It has no body: every claim about `Machine.step` holds for both values. The machine's own
functions take the parameter as an argument, as R7 asks; `Machine.step` gives them this constant
(notes/assumptions/1.md). -/
opaque Config.hasRawMode : Bool

end Sys2Proof
end

