-- ==== Sys2Proof/Word.lean ====
section
/-! DEFINITION. The widths the spec gives its values (00_scope.md R6, R8; 10_state.md R30). -/

namespace Sys2Proof

/-- One byte of a frame, of the input port or of the configuration port (R8). -/
abbrev Byte := BitVec 8

/-- The 16-bit framecount (R6). -/
abbrev Half := BitVec 16

/-- The 32-bit timestamp (R6). -/
abbrev Word := BitVec 32

/-- The frame seen as one 64-bit word `W`, byte 0 in `W[63:56]` (R56, R80). -/
abbrev FrameWord := BitVec 64

/-- The result bus `res[143:0]` (R30, R53). -/
abbrev Bus := BitVec 144

/-- The address on the configuration port (R25). -/
abbrev CfgAddr := BitVec 2

/-- A frame: exactly 8 bytes, numbered 0 to 7 in arrival order (R9, R80). -/
abbrev Frame := Vector Byte 8

end Sys2Proof
end

