-- ==== Sys2Proof/Syntax.lean ====
section
/-! DEFINITION. The instructions: one command kind per row of spec/opcode_table.json (00_scope.md R2). -/

namespace Sys2Proof

/-- A decoded frame (R2: one frame is one instruction word, its command identifier the opcode).
The operands are the raw fields of R80: the payload bytes B1, B2, B3 and the timestamp field TS.
The identifier is an operand only where the row does not fix it. -/
inductive Instr where
  /-- id 1 (R140) -/
  | protocolVersion (b1 b2 b3 : Byte) (ts : Word)
  /-- id 101 (R141) -/
  | joypad (b1 b2 b3 : Byte) (ts : Word)
  /-- id 104 (R142) -/
  | sendByteMaster (b1 b2 b3 : Byte) (ts : Word)
  /-- id 105 (R143) -/
  | sendByteSlave (b1 b2 b3 : Byte) (ts : Word)
  /-- id 106 (R144) -/
  | timestamp (b1 b2 b3 : Byte) (ts : Word)
  /-- id 108 (R145) -/
  | status (b1 b2 b3 : Byte) (ts : Word)
  /-- any other id (R146) -/
  | unknown (id b1 b2 b3 : Byte) (ts : Word)
  /-- any id under the raw-only layout (R147) -/
  | raw (id b1 b2 b3 : Byte) (ts : Word)
deriving DecidableEq, Repr

end Sys2Proof
end

