-- ==== Sys2Proof/WellFormed.lean ====
section
/-! DEFINITION. Which instruction terms stand for a frame. -/

namespace Sys2Proof

/-- The six identifiers the opcode map names (30_encoding.md R86). -/
def knownIds : List Byte := [0x01#8, 0x65#8, 0x68#8, 0x69#8, 0x6A#8, 0x6C#8]

/-- A term is well-formed when some frame decodes to it: `unknown` carries none of the six known
identifiers (R87); every other term is (R91: no frame encoding is illegal). -/
def Instr.wellFormed : Instr → Bool
  | .protocolVersion _ _ _ _ => true
  | .joypad _ _ _ _ => true
  | .sendByteMaster _ _ _ _ => true
  | .sendByteSlave _ _ _ _ => true
  | .timestamp _ _ _ _ => true
  | .status _ _ _ _ => true
  | .unknown id _ _ _ _ => !knownIds.contains id
  | .raw _ _ _ _ _ => true

end Sys2Proof
end

