-- ==== Sys2Proof/Decode.lean ====
section
/-! DEFINITION. Frames to instructions and back (20_memory.md R56; 30_encoding.md R80 to R92;
40_decode.md R110, R111). -/

namespace Sys2Proof

/-- `be16(x, y)` (R10). -/
def be16 (x y : Byte) : Half := x ++ y

/-- `be32(a, b, c, d)` (R10). -/
def be32 (a b c d : Byte) : Word := a ++ b ++ c ++ d

/-- The four bytes of a big-endian 32-bit field, most significant first (R56). -/
def wordBytes (t : Word) : List Byte :=
  [t.extractLsb' 24 8, t.extractLsb' 16 8, t.extractLsb' 8 8, t.extractLsb' 0 8]

/-- The frame of a 64-bit word `W`: byte i is `W[63-8i : 56-8i]` (R56). -/
def frameOfWord (w : FrameWord) : Frame := Vector.ofFn fun i => w.extractLsb' (56 - 8 * i.val) 8

/-- The 64-bit word `W` of a frame (R56). -/
def wordOfFrame (f : Frame) : FrameWord := f[0] ++ f[1] ++ f[2] ++ f[3] ++ f[4] ++ f[5] ++ f[6] ++ f[7]

/-- Under `fmt = 0` the identifier selects the kind by exact 8-bit equality, with Unknown the default
arm (R86, R87); under `fmt = 1` every frame is RAW (R92). Total on all frames and both layouts (R110). -/
def decode (fmt : Bool) (f : Frame) : Instr :=
  let ts := be32 f[4] f[5] f[6] f[7]
  if fmt then .raw f[0] f[1] f[2] f[3] ts
  else if f[0] = 0x01#8 then .protocolVersion f[1] f[2] f[3] ts
  else if f[0] = 0x65#8 then .joypad f[1] f[2] f[3] ts
  else if f[0] = 0x68#8 then .sendByteMaster f[1] f[2] f[3] ts
  else if f[0] = 0x69#8 then .sendByteSlave f[1] f[2] f[3] ts
  else if f[0] = 0x6A#8 then .timestamp f[1] f[2] f[3] ts
  else if f[0] = 0x6C#8 then .status f[1] f[2] f[3] ts
  else .unknown f[0] f[1] f[2] f[3] ts

/-- Why a buffer is no frame. -/
inductive DecodeError where
  /-- The buffer holds `n ≠ 8` bytes (R111; 90_conflicts.md C2). -/
  | malformedFrame (n : Nat)
deriving DecidableEq, Repr

/-- The decoder on a buffer of any length: exactly 8 bytes decode, any other length is refused by name
(R111). -/
def decodeBytes (fmt : Bool) (buf : List Byte) : Except DecodeError Instr :=
  if h : buf.length = 8 then .ok (decode fmt ⟨⟨buf⟩, h⟩) else .error (.malformedFrame buf.length)

/-- The layout an instruction is decoded under: FMT = 1 for RAW, FMT = 0 for every other row (the
table's conditions; R86, R92). -/
def Instr.layout : Instr → Bool
  | .raw _ _ _ _ _ => true
  | .protocolVersion _ _ _ _ => false
  | .joypad _ _ _ _ => false
  | .sendByteMaster _ _ _ _ => false
  | .sendByteSlave _ _ _ _ => false
  | .timestamp _ _ _ _ => false
  | .status _ _ _ _ => false
  | .unknown _ _ _ _ _ => false

/-- The frame with these raw fields (R80). -/
def frameOf (id b1 b2 b3 : Byte) (ts : Word) : Frame :=
  #v[id, b1, b2, b3, ts.extractLsb' 24 8, ts.extractLsb' 16 8, ts.extractLsb' 8 8, ts.extractLsb' 0 8]

/-- The frame of an instruction, from the layouts of R82 and the identifiers of R86. -/
def encode : Instr → Frame
  | .protocolVersion b1 b2 b3 ts => frameOf 0x01#8 b1 b2 b3 ts
  | .joypad b1 b2 b3 ts => frameOf 0x65#8 b1 b2 b3 ts
  | .sendByteMaster b1 b2 b3 ts => frameOf 0x68#8 b1 b2 b3 ts
  | .sendByteSlave b1 b2 b3 ts => frameOf 0x69#8 b1 b2 b3 ts
  | .timestamp b1 b2 b3 ts => frameOf 0x6A#8 b1 b2 b3 ts
  | .status b1 b2 b3 ts => frameOf 0x6C#8 b1 b2 b3 ts
  | .unknown id b1 b2 b3 ts => frameOf id b1 b2 b3 ts
  | .raw id b1 b2 b3 ts => frameOf id b1 b2 b3 ts

/-- The instruction the decoder reads, under the layout after reset (FMT = 0), from a table word `w`
of `nbits` bits. The table numbers the frame's bits as R80 does: ID in bits 63..56, byte 7 in bits 7..0
(notes/assumptions/7.md and 8.md). -/
def decodeTableWord (nbits w : Nat) : Option Instr :=
  if nbits ≤ 64 then
    (decodeBytes false (frameOfWord (BitVec.ofNat 64 (w % 2 ^ nbits))).toList).toOption
  else none

end Sys2Proof
end

