-- ==== Sys2Proof/Machine/State.lean ====
section
/-! DEFINITION. The machine's state as plain data, its stops, and the state after reset (10_state.md;
60_exceptions.md; 70_reset_and_hazards.md R230). -/

namespace Sys2Proof.Machine

/-- The closed enumeration of kinds a result can name (30_encoding.md R88, codes 0 to 8). -/
inductive Kind where
  | none | protocolVersion | joypad | sendByteMaster | sendByteSlave | timestamp | status | unknown | raw
deriving DecidableEq, Repr

/-- The branch texts a summary can show (30_encoding.md R89, codes 0 to 8). -/
inductive Label where
  | none | pushed | released | highSpeed | doubleSpeed | activeTransferResponse | synchronization
  | paused | running
deriving DecidableEq, Repr

/-- The result register RES, field by field (R30). Its 144-bit form on the bus is `Res.pack`
(Machine/Result.lean), where KIND and LABEL are their codes and the reserved bit 15 is 0. -/
structure Res where
  /-- bit 0: false = decoded, true = MalformedFrame -/
  status : Bool
  /-- bits 4:1: the number of frame bytes received -/
  len : BitVec 4
  /-- bit 5: the layout the frame was decoded under -/
  mode : Bool
  /-- bits 9:6 -/
  kind : Kind
  /-- bits 13:10 -/
  label : Label
  /-- bit 14: the one extracted flag bit of the kind -/
  flag : Bool
  /-- bits 23:16: raw byte 0 -/
  id : Byte
  /-- bits 31:24: raw byte 1 -/
  b1 : Byte
  /-- bits 39:32: raw byte 2 -/
  b2 : Byte
  /-- bits 47:40: raw byte 3 -/
  b3 : Byte
  /-- bits 79:48: raw bytes 4 to 7, big-endian -/
  ts : Word
  /-- bits 87:80: interpreted 8-bit value A -/
  va : Byte
  /-- bits 95:88: interpreted 8-bit value B -/
  vb : Byte
  /-- bits 111:96: interpreted 16-bit value -/
  vw : Half
  /-- bits 143:112: interpreted 32-bit value -/
  vt : Word
deriving DecidableEq, Repr

/-- RES with every field 0: what Reset leaves, and what no emit produces (R31). -/
def Res.zero : Res :=
  { status := false, len := 0#4, mode := false, kind := .none, label := .none, flag := false
    id := 0#8, b1 := 0#8, b2 := 0#8, b3 := 0#8, ts := 0#32
    va := 0#8, vb := 0#8, vw := 0#16, vt := 0#32 }

/-- The transaction-level events (00_scope.md R12; 42_stream_ops.md). -/
inductive Event where
  /-- one byte at the input port with its segment-end marker (R170 to R172) -/
  | byteIn (d : Byte) (eos : Bool)
  /-- the host takes the pending result (R173) -/
  | take
  /-- a write at the configuration port (R174) -/
  | cfgWrite (a : CfgAddr) (v : Byte)
  /-- a read at the configuration port (R175) -/
  | cfgRead (a : CfgAddr)
  /-- the Reset event (R230) -/
  | reset
deriving DecidableEq, Repr

/-- The levels the host drives on the block's input pins at one rising edge of `clk` (R51 to R54). -/
structure Pins where
  rst : Bool
  inValid : Bool
  inData : Byte
  inEos : Bool
  outReady : Bool
  cfgAddr : CfgAddr
  cfgWe : Bool
  cfgWdata : Byte
deriving DecidableEq, Repr

/-- What the host does next: one transaction-level event, or one clock edge (R12). -/
inductive Stimulus where
  | event (e : Event)
  | edge (p : Pins)
deriving DecidableEq, Repr

/-- The state. The first five fields are the architectural state of R20 and nothing else; the last four
are the MODEL's own, the two sides of the host interface (notes/assumptions/2.md to 6.md). -/
structure State where
  /-- CNT: how many bytes of the current frame have been accepted (R21) -/
  cnt : BitVec 3
  /-- FB[0..6]: the accepted bytes of the current frame (R22) -/
  fb : Vector Byte 7
  /-- OV: RES holds a result the host has not taken (R24) -/
  ov : Bool
  /-- RES: the last result emitted (R30, R31) -/
  res : Res
  /-- CTRL.FMT as stored; it is read through `State.layout` (R26, R27) -/
  fmt : Bool
  /-- model's own: what the host does next, in order -/
  inputs : List Stimulus
  /-- model's own: the byte and eos that the last clock edge held back (`in_valid = 1`, `in_ready = 0`) -/
  held : Option (Byte × Bool)
  /-- model's own: the results delivered by Take, oldest first (R173) -/
  taken : List Res
  /-- model's own: the bytes returned by CfgRead, oldest first (R175) -/
  reads : List Byte
deriving DecidableEq, Repr

/-- Faults. There are NO constructors: the block has no traps (60_exceptions.md, preamble), its one error
is an ordinary result value (R200, R203), no frame is illegal (R91) and no configuration address raises
an error (R29), so nothing raises a fault. Safe: no run of the model ends in one. -/
inductive Fault where
deriving DecidableEq, Repr

/-- Refusals. -/
inductive Refusal where
  /-- Raised by `exec` for an instruction that has no meaning yet. Every instruction of this model has one,
  so nothing raises it. Safe. -/
  | notModelled (mnemonic : String)
  /-- Raised by a clock edge with `rst = 0` at which the host presents another byte or eos than the one the edge before
  held back. The spec: "The model has no move for it" (93_implementation_defined.md I14; 20_memory.md R66).
  Safe: the model stops where the spec gives no move. At an edge with `rst = 1` it is not raised: Reset occurs
  (R51, R240; DESIGN CHOICE, unsafe, notes/assumptions/6.md). -/
  | heldByteChanged
deriving DecidableEq, Repr

/-- The machine right after reset (R230): CNT, FB, OV, RES and CTRL.FMT all 0. The model's own fields are
empty: the host has nothing to send and has been handed nothing. -/
def State.reset : State :=
  { cnt := 0#3, fb := Vector.replicate 7 0#8, ov := false, res := Res.zero, fmt := false
    inputs := [], held := none, taken := [], reads := [] }

end Sys2Proof.Machine
end

