-- ==== Sys2Proof/Machine/Result.lean ====
section
/-! DEFINITION. The result record on the bus: the codes of KIND and LABEL and the packing of RES
(10_state.md R30; 30_encoding.md R88, R89). -/

namespace Sys2Proof.Machine

/-- The kind codes (R88). -/
def Kind.code : Kind → BitVec 4
  | .none => 0#4
  | .protocolVersion => 1#4
  | .joypad => 2#4
  | .sendByteMaster => 3#4
  | .sendByteSlave => 4#4
  | .timestamp => 5#4
  | .status => 6#4
  | .unknown => 7#4
  | .raw => 8#4

/-- The kind of a code; codes 9 to 15 are never produced (R88; 93_implementation_defined.md I11). -/
def Kind.ofCode (c : BitVec 4) : Option Kind :=
  [Kind.none, .protocolVersion, .joypad, .sendByteMaster, .sendByteSlave, .timestamp, .status, .unknown,
    .raw][c.toNat]?

/-- The label codes (R89). -/
def Label.code : Label → BitVec 4
  | .none => 0#4
  | .pushed => 1#4
  | .released => 2#4
  | .highSpeed => 3#4
  | .doubleSpeed => 4#4
  | .activeTransferResponse => 5#4
  | .synchronization => 6#4
  | .paused => 7#4
  | .running => 8#4

/-- The label of a code; codes 9 to 15 are never produced (R89; I11). -/
def Label.ofCode (c : BitVec 4) : Option Label :=
  [Label.none, .pushed, .released, .highSpeed, .doubleSpeed, .activeTransferResponse, .synchronization,
    .paused, .running][c.toNat]?

/-- RES as the bus `res[143:0]` shows it (R30): the most significant field first, bit 15 always 0. -/
def Res.pack (r : Res) : Bus :=
  r.vt ++ r.vw ++ r.vb ++ r.va ++ r.ts ++ r.b3 ++ r.b2 ++ r.b1 ++ r.id ++ 0#1 ++ BitVec.ofBool r.flag ++
    r.label.code ++ r.kind.code ++ BitVec.ofBool r.mode ++ r.len ++ BitVec.ofBool r.status

/-- The record a bus value stands for; a code that is never produced, or a reserved bit that is not 0,
stands for none (R30; I11). -/
def Res.unpack (w : Bus) : Option Res :=
  match w.getLsbD 15, Kind.ofCode (w.extractLsb' 6 4), Label.ofCode (w.extractLsb' 10 4) with
  | false, some k, some l =>
    some
      { status := w.getLsbD 0, len := w.extractLsb' 1 4, mode := w.getLsbD 5, kind := k, label := l
        flag := w.getLsbD 14, id := w.extractLsb' 16 8, b1 := w.extractLsb' 24 8
        b2 := w.extractLsb' 32 8, b3 := w.extractLsb' 40 8, ts := w.extractLsb' 48 32
        va := w.extractLsb' 80 8, vb := w.extractLsb' 88 8, vw := w.extractLsb' 96 16
        vt := w.extractLsb' 112 32 }
  | _, _, _ => none

end Sys2Proof.Machine
end

