-- ==== Sys2Proof/Machine/Flags.lean ====
section
/-! DEFINITION. The flag of each kind and the label it selects (10_state.md R32; 30_encoding.md R83, R89). -/

namespace Sys2Proof.Machine

/-- Joypad: pushed is `B1[2]` (R32, R141). -/
def pushedFlag (b1 : Byte) : Bool := b1.getLsbD 2

/-- PUSHED or RELEASED (R141). -/
def pushedLabel (pushed : Bool) : Label := if pushed then .pushed else .released

/-- SendByteMaster: high speed is `B2[1]` (R32, R142). -/
def highSpeedFlag (b2 : Byte) : Bool := b2.getLsbD 1

/-- HIGH_SPEED or DOUBLE_SPEED (R142). -/
def speedLabel (high : Bool) : Label := if high then .highSpeed else .doubleSpeed

/-- Timestamp: synchronization is `B1 == 0`, the whole byte (R32, R144). -/
def syncFlag (b1 : Byte) : Bool := b1 == 0x00#8

/-- SYNCHRONIZATION or ACTIVE_TRANSFER_RESPONSE (R144). -/
def syncLabel (sync : Bool) : Label := if sync then .synchronization else .activeTransferResponse

/-- Status: paused is `B1[0]` (R32, R145). -/
def pausedFlag (b1 : Byte) : Bool := b1.getLsbD 0

/-- PAUSED or RUNNING (R145). -/
def pausedLabel (paused : Bool) : Label := if paused then .paused else .running

end Sys2Proof.Machine
end

