-- ==== Sys2Proof/Machine/Operands.lean ====
section
/-! DEFINITION. The interpreted values of a frame, each by the formula of 30_encoding.md R83, in one place
(92_eei_decisions.md D20). Values that are a raw byte or TS as it stands (major, minor, value, control, the
timestamp, the unknown id) are named by the operand itself. -/

namespace Sys2Proof.Machine

/-- button_num: `B1 & 0x04` (R83, R141). -/
def buttonNumber (b1 : Byte) : Byte := b1 &&& 0x04#8

/-- framecount: `be16(B2, B3)` (R83, R144). -/
def framecount (b2 b3 : Byte) : Half := be16 b2 b3

/-- The timestamp a Timestamp frame interprets: TS in the synchronization branch, 0 in the other (R144). -/
def syncTimestamp (sync : Bool) (ts : Word) : Word := if sync then ts else 0#32

/-- LEN of the Malformed result of a run that ends with the byte at position `cnt`: `CNT + 1` (R172). -/
def malformedLen (cnt : BitVec 3) : BitVec 4 := cnt.setWidth 4 + 1#4

end Sys2Proof.Machine
end

