-- ==== Sys2Proof/Machine/Ops.lean ====
section
/-! DEFINITION. The named operations over the block's registers: the frame buffer, the result register, the
configuration space, raising the one error, and reset. -/

namespace Sys2Proof.Machine

/-- The layout in force: CTRL.FMT, hardwired to 0 when HAS_RAW_MODE is false (R26, R27). Every read of FMT
goes through here. -/
def State.layout (hasRaw : Bool) (s : State) : Bool := s.fmt && hasRaw

/-- `FB[CNT] <- d` (R22, R170). -/
def State.writeFB (s : State) (d : Byte) : State := { s with fb := s.fb.setIfInBounds s.cnt.toNat d }

/-- `CNT <- CNT + 1` (R170). -/
def State.advance (s : State) : State := { s with cnt := s.cnt + 1#3 }

/-- `CNT <- 0` (R171, R172). -/
def State.closeFrame (s : State) : State := { s with cnt := 0#3 }

/-- `emit r`: load the output register and set OV (00_scope.md R11; R24). -/
def State.emit (s : State) (r : Res) : State := { s with res := r, ov := true }

/-- What every decoded result holds before its kind rule writes: STATUS 0, LEN 8, MODE, the five raw fields,
every other slot 0 (40_decode.md R110, R112, R113). -/
def baseResult (mode : Bool) (id b1 b2 b3 : Byte) (ts : Word) : Res :=
  { Res.zero with len := 8#4, mode := mode, id := id, b1 := b1, b2 := b2, b3 := b3, ts := ts }

/-- The result `Malformed(len)`: STATUS 1, LEN, every other field 0 (60_exceptions.md R200). -/
def malformedResult (len : BitVec 4) : Res := { Res.zero with status := true, len := len }

/-- `raise MalformedFrame(len)`, the block's one error: it saves LEN in RES and sets OV, changes no mode, mask
or control register and jumps nowhere (R200, R204). There is no return from it: the block takes its next
event (R206). -/
def State.raiseMalformed (s : State) (len : BitVec 4) : State := s.emit (malformedResult len)

/-- The byte at a configuration address (R25 to R29, R175): CTRL is `zext_8(FMT)`, STATUS is
`zext_8(OV ++ CNT)`, the reserved addresses read 0x00. -/
def State.cfgByte (hasRaw : Bool) (s : State) (a : CfgAddr) : Byte :=
  if a = 0#2 then (BitVec.ofBool (s.layout hasRaw)).setWidth 8
  else if a = 1#2 then (BitVec.ofBool s.ov ++ s.cnt).setWidth 8
  else 0x00#8

/-- A write at the configuration port: bit 0 to CTRL.FMT when the raw layout is there, and nothing else
anywhere (R26 to R29, R174). -/
def State.cfgStore (hasRaw : Bool) (s : State) (a : CfgAddr) (v : Byte) : State :=
  if a = 0#2 && hasRaw then { s with fmt := v.getLsbD 0 } else s

/-- The Reset event: every element of the architectural state to its reset value (R230). What the host has
still to send and has been handed is the host's, and stays. -/
def State.resetBlock (s : State) : State :=
  { State.reset with inputs := s.inputs, taken := s.taken, reads := s.reads }

/-- Two operations in a row; a stop of the first is the stop of both. -/
def andThen (o : Host.Outcome State Fault Refusal) (k : State → Host.Outcome State Fault Refusal) :
    Host.Outcome State Fault Refusal :=
  match o with
  | .next s => k s
  | .fault r => .fault r
  | .refused r => .refused r

end Sys2Proof.Machine
end

