-- ==== Sys2Proof/Machine/Commands.lean ====
section
/-! DEFINITION. The command kinds (41_commands.md R140 to R147): the result of each, and its meaning on the
machine, which emits that result and closes the frame (42_stream_ops.md R171). -/

namespace Sys2Proof.Machine

/-- ProtocolVersion (R140): VA is the major version B1, VB the minor version B2. -/
def resultProtocolVersion (b1 b2 b3 : Byte) (ts : Word) : Res :=
  { baseResult false 0x01#8 b1 b2 b3 ts with kind := .protocolVersion, va := b1, vb := b2 }

/-- Joypad (R141). -/
def resultJoypad (b1 b2 b3 : Byte) (ts : Word) : Res :=
  { baseResult false 0x65#8 b1 b2 b3 ts with
    kind := .joypad, va := buttonNumber b1, flag := pushedFlag b1, label := pushedLabel (pushedFlag b1) }

/-- SendByteMaster (R142). -/
def resultSendByteMaster (b1 b2 b3 : Byte) (ts : Word) : Res :=
  { baseResult false 0x68#8 b1 b2 b3 ts with
    kind := .sendByteMaster, va := b1, vb := b2, flag := highSpeedFlag b2
    label := speedLabel (highSpeedFlag b2), vt := ts }

/-- SendByteSlave (R143): the control byte raw, no speed decode. -/
def resultSendByteSlave (b1 b2 b3 : Byte) (ts : Word) : Res :=
  { baseResult false 0x69#8 b1 b2 b3 ts with kind := .sendByteSlave, va := b1, vb := b2 }

/-- Timestamp (R144). -/
def resultTimestamp (b1 b2 b3 : Byte) (ts : Word) : Res :=
  { baseResult false 0x6A#8 b1 b2 b3 ts with
    kind := .timestamp, vw := framecount b2 b3, flag := syncFlag b1, label := syncLabel (syncFlag b1)
    vt := syncTimestamp (syncFlag b1) ts }

/-- Status (R145): the status byte is not copied to an interpreted slot. -/
def resultStatus (b1 b2 b3 : Byte) (ts : Word) : Res :=
  { baseResult false 0x6C#8 b1 b2 b3 ts with
    kind := .status, flag := pausedFlag b1, label := pausedLabel (pausedFlag b1) }

/-- Unknown (R146): the raw id, preserved in VA. -/
def resultUnknown (id b1 b2 b3 : Byte) (ts : Word) : Res :=
  { baseResult false id b1 b2 b3 ts with kind := .unknown, va := id }

/-- RAW (R147): MODE is 1 (R112), no interpretation. -/
def resultRaw (id b1 b2 b3 : Byte) (ts : Word) : Res :=
  { baseResult true id b1 b2 b3 ts with kind := .raw }

/-- The result of an instruction (R110's case split). -/
def resultOf : Instr → Res
  | .protocolVersion b1 b2 b3 ts => resultProtocolVersion b1 b2 b3 ts
  | .joypad b1 b2 b3 ts => resultJoypad b1 b2 b3 ts
  | .sendByteMaster b1 b2 b3 ts => resultSendByteMaster b1 b2 b3 ts
  | .sendByteSlave b1 b2 b3 ts => resultSendByteSlave b1 b2 b3 ts
  | .timestamp b1 b2 b3 ts => resultTimestamp b1 b2 b3 ts
  | .status b1 b2 b3 ts => resultStatus b1 b2 b3 ts
  | .unknown id b1 b2 b3 ts => resultUnknown id b1 b2 b3 ts
  | .raw id b1 b2 b3 ts => resultRaw id b1 b2 b3 ts

/-- `Decode(f, fmt)`, the pure core of the block (R13, R110). -/
def decodeFrame (fmt : Bool) (f : Frame) : Res := resultOf (decode fmt f)

/-- What `DecodeBuf` answers: the abstract values of R30. A `malformed n` with n = 0 or n > 8 has no RES
packing (R111). -/
inductive BufResult where
  | decoded (r : Res)
  | malformed (n : Nat)
deriving DecidableEq, Repr

/-- `DecodeBuf(buf, fmt)` (R111). -/
def decodeBuf (fmt : Bool) (buf : List Byte) : BufResult :=
  match decodeBytes fmt buf with
  | .ok i => .decoded (resultOf i)
  | .error (.malformedFrame n) => .malformed n

/-- R171 with R140: emit the result, close the frame. -/
def execProtocolVersion (b1 b2 b3 : Byte) (ts : Word) (s : State) : Host.Outcome State Fault Refusal :=
  .next (s.emit (resultProtocolVersion b1 b2 b3 ts)).closeFrame

/-- R171 with R141. -/
def execJoypad (b1 b2 b3 : Byte) (ts : Word) (s : State) : Host.Outcome State Fault Refusal :=
  .next (s.emit (resultJoypad b1 b2 b3 ts)).closeFrame

/-- R171 with R142. -/
def execSendByteMaster (b1 b2 b3 : Byte) (ts : Word) (s : State) : Host.Outcome State Fault Refusal :=
  .next (s.emit (resultSendByteMaster b1 b2 b3 ts)).closeFrame

/-- R171 with R143. -/
def execSendByteSlave (b1 b2 b3 : Byte) (ts : Word) (s : State) : Host.Outcome State Fault Refusal :=
  .next (s.emit (resultSendByteSlave b1 b2 b3 ts)).closeFrame

/-- R171 with R144. -/
def execTimestamp (b1 b2 b3 : Byte) (ts : Word) (s : State) : Host.Outcome State Fault Refusal :=
  .next (s.emit (resultTimestamp b1 b2 b3 ts)).closeFrame

/-- R171 with R145. -/
def execStatus (b1 b2 b3 : Byte) (ts : Word) (s : State) : Host.Outcome State Fault Refusal :=
  .next (s.emit (resultStatus b1 b2 b3 ts)).closeFrame

/-- R171 with R146. -/
def execUnknown (id b1 b2 b3 : Byte) (ts : Word) (s : State) : Host.Outcome State Fault Refusal :=
  .next (s.emit (resultUnknown id b1 b2 b3 ts)).closeFrame

/-- R171 with R147. -/
def execRaw (id b1 b2 b3 : Byte) (ts : Word) (s : State) : Host.Outcome State Fault Refusal :=
  .next (s.emit (resultRaw id b1 b2 b3 ts)).closeFrame

end Sys2Proof.Machine
end

