-- ==== Sys2Proof/Machine/Dispatch.lean ====
section
/-! DEFINITION. One arm per constructor of Instr. -/

namespace Sys2Proof.Machine

def exec (i : Instr) (s : State) : Host.Outcome State Fault Refusal :=
  match i with
  | .protocolVersion b1 b2 b3 ts => Sys2Proof.Machine.execProtocolVersion b1 b2 b3 ts s
  | .joypad b1 b2 b3 ts => Sys2Proof.Machine.execJoypad b1 b2 b3 ts s
  | .sendByteMaster b1 b2 b3 ts => Sys2Proof.Machine.execSendByteMaster b1 b2 b3 ts s
  | .sendByteSlave b1 b2 b3 ts => Sys2Proof.Machine.execSendByteSlave b1 b2 b3 ts s
  | .timestamp b1 b2 b3 ts => Sys2Proof.Machine.execTimestamp b1 b2 b3 ts s
  | .status b1 b2 b3 ts => Sys2Proof.Machine.execStatus b1 b2 b3 ts s
  | .unknown id b1 b2 b3 ts => Sys2Proof.Machine.execUnknown id b1 b2 b3 ts s
  | .raw id b1 b2 b3 ts => Sys2Proof.Machine.execRaw id b1 b2 b3 ts s

end Sys2Proof.Machine
end

