-- ==== Sys2Proof/Machine/Stream.lean ====
section
/-! DEFINITION. The transaction-level events (42_stream_ops.md R170 to R176). -/

namespace Sys2Proof.Machine

/-- ByteIn that neither completes a frame nor ends a run (R170). -/
def storeByte (d : Byte) (s : State) : State := (s.writeFB d).advance

/-- ByteIn that ends a run on a partial frame (R172): the error, with LEN = CNT + 1, and CNT back to 0. -/
def endRun (d : Byte) (s : State) : State :=
  ((s.writeFB d).raiseMalformed (malformedLen s.cnt)).closeFrame

/-- ByteIn that completes a frame (R171): the 8th byte goes to the decoder with FB[0..6], under the layout
as it stands before the event, and the decoded instruction runs. -/
def completeFrame (hasRaw : Bool) (d : Byte) (s : State) : Host.Outcome State Fault Refusal :=
  exec (decode (s.layout hasRaw) (s.fb.push d)) s

/-- The three cases of an enabled ByteIn, completion first (R176, R205). -/
def byteIn (hasRaw : Bool) (d : Byte) (eos : Bool) (s : State) : Host.Outcome State Fault Refusal :=
  if s.cnt = 7#3 then completeFrame hasRaw d s
  else if eos then .next (endRun d s)
  else .next (storeByte d s)

/-- Take (R173): RES goes to the host and keeps its value (R31). -/
def takeResult (s : State) : State := { s with ov := false, taken := s.taken ++ [s.res] }

/-- CfgRead (R175): the byte goes to the host; no architectural state changes. -/
def cfgReadOut (hasRaw : Bool) (a : CfgAddr) (s : State) : State :=
  { s with reads := s.reads ++ [s.cfgByte hasRaw a] }

/-- When an event can occur (R52, R173 to R175, R230). -/
def enabled (e : Event) (s : State) : Bool :=
  match e with
  | .byteIn _ _ => !s.ov
  | .take => s.ov
  | .cfgWrite _ _ => true
  | .cfgRead _ => true
  | .reset => true

/-- What an event does when it occurs. -/
def applyEvent (hasRaw : Bool) (e : Event) (s : State) : Host.Outcome State Fault Refusal :=
  match e with
  | .byteIn d eos => byteIn hasRaw d eos s
  | .take => .next (takeResult s)
  | .cfgWrite a v => .next (s.cfgStore hasRaw a v)
  | .cfgRead a => .next (cfgReadOut hasRaw a s)
  | .reset => .next s.resetBlock

/-- `Step(s, e)`, a partial function: none where the event is not enabled (R176). -/
def eventStep (hasRaw : Bool) (e : Event) (s : State) : Option (Host.Outcome State Fault Refusal) :=
  if enabled e s then some (applyEvent hasRaw e s) else none

end Sys2Proof.Machine
end

