-- ==== Sys2Proof/Machine/Ports.lean ====
section
/-! DEFINITION. The ports at cycle level (20_memory.md R51 to R55) and the events that meet at one clock edge
(70_reset_and_hazards.md R240). -/

namespace Sys2Proof.Machine

/-- `in_ready = (OV == 0) | out_ready` (R52), from the state before the edge (R240). -/
def inReady (p : Pins) (s : State) : Bool := !s.ov || p.outReady

/-- `out_valid = OV` (R53). -/
def outValid (s : State) : Bool := s.ov

/-- `res[143:0] = RES`, whether or not `out_valid` is high (R53). -/
def resBus (s : State) : Bus := s.res.pack

/-- `cfg_rdata = CfgRead(cfg_addr)` at all times (R54). -/
def cfgRdata (hasRaw : Bool) (p : Pins) (s : State) : Byte := s.cfgByte hasRaw p.cfgAddr

/-- The events the pins select at one edge, in order: Reset alone, otherwise Take, then ByteIn, then CfgWrite
(R240). -/
def edgeEvents (p : Pins) (s : State) : List Event :=
  if p.rst then [.reset]
  else
    (if outValid s && p.outReady then [.take] else []) ++
    (if p.inValid && inReady p s then [.byteIn p.inData p.inEos] else []) ++
    (if p.cfgWe then [.cfgWrite p.cfgAddr p.cfgWdata] else [])

/-- Events in order, each applied to the state the previous one left (R240). -/
def applyEvents (hasRaw : Bool) : List Event → State → Host.Outcome State Fault Refusal
  | [], s => .next s
  | e :: es, s => andThen (applyEvent hasRaw e s) (applyEvents hasRaw es)

/-- Whether the host changes a byte that the edge before held back: `in_valid` is high again with another
`in_data` or `in_eos` (R66: assumed never; 93_implementation_defined.md I14). DESIGN CHOICE at an edge with
`rst = 1`, where I14 gives no move and R51 and R240 give Reset: such an edge changes no held byte here, so Reset
occurs (notes/assumptions/6.md). -/
def changesHeldByte (p : Pins) (s : State) : Bool :=
  match s.held with
  | none => false
  | some (d, eos) => !p.rst && p.inValid && !(p.inData == d && p.inEos == eos)

/-- The byte an edge holds back: presented and not accepted (R52, R66). DESIGN CHOICE: an edge with
`rst = 1` holds nothing back, whatever its input pins show (notes/assumptions/6.md). -/
def heldAfterEdge (p : Pins) (s : State) : Option (Byte × Bool) :=
  if !p.rst && p.inValid && !inReady p s then some (p.inData, p.inEos) else none

/-- The byte still held back after a transaction-level event: reading the configuration port is no clock edge
(R54), every other event is one at which no byte is held back (DESIGN CHOICE, notes/assumptions/6.md). -/
def heldAfterEvent (e : Event) (s : State) : Option (Byte × Bool) :=
  match e with
  | .cfgRead _ => s.held
  | .byteIn _ _ => none
  | .take => none
  | .cfgWrite _ _ => none
  | .reset => none

/-- One rising edge of `clk` (R240). -/
def edgeStep (hasRaw : Bool) (p : Pins) (s : State) : Host.Outcome State Fault Refusal :=
  if changesHeldByte p s then .refused .heldByteChanged
  else applyEvents hasRaw (edgeEvents p s) { s with held := heldAfterEdge p s }

end Sys2Proof.Machine
end

