-- ==== Sys2Proof/Machine/Step.lean ====
section
/-! DEFINITION. The step: the machine takes the host's next stimulus (00_scope.md R12). -/

namespace Sys2Proof.Machine

/-- One step of the block with the given HAS_RAW_MODE. With no stimulus the block is idle and keeps all its
state (R214). An event that is not enabled has no step (R176): the host holds it and the block does not move,
so the state stays as it is, the event still first in line (R93, R244; notes/assumptions/3.md). -/
def stepWith (hasRaw : Bool) (s : State) : Host.Outcome State Fault Refusal :=
  match s.inputs with
  | [] => .next s
  | .event e :: rest =>
    match eventStep hasRaw e { s with inputs := rest, held := heldAfterEvent e s } with
    | none => .next s
    | some o => o
  | .edge p :: rest => edgeStep hasRaw p { s with inputs := rest }

/-- One step of the block. -/
def step (s : State) : Host.Outcome State Fault Refusal := stepWith Config.hasRawMode s

/-- `s` with the instruction word `w` where the next step takes it: the frame's first seven bytes accepted
(FB, CNT = 7), no result pending, and the host's next event the eighth byte (notes/assumptions/9.md). -/
def State.withFetchWord (s : State) (nbits w : Nat) : State :=
  let f := frameOfWord (BitVec.ofNat 64 (w % 2 ^ nbits))
  { s with
    cnt := 7#3, fb := #v[f[0], f[1], f[2], f[3], f[4], f[5], f[6]], ov := false
    inputs := .event (.byteIn f[7] false) :: s.inputs }

end Sys2Proof.Machine
end

