-- ==== Sys2Proof/Machine/Forms.lean ====
section
/-! DEFINITION. The spec's own written forms for frames and stimulus programs (30_encoding.md R93). -/

namespace Sys2Proof.Machine

/-- The mnemonic forms of a frame (R93). -/
inductive FrameForm where
  | version (maj min : Byte)
  | joypad (p : Byte)
  | sbm (v c : Byte) (t : Word)
  | sbs (v c : Byte)
  | tsync (f : Half) (t : Word)
  | tack (r : Byte) (f : Half)
  | status (s : Byte)
  | frame (f : Frame)
deriving DecidableEq, Repr

/-- The one constraint of the forms: `TACK r, f` has r != 00 (R93). -/
def FrameForm.wellFormed : FrameForm → Bool
  | .version _ _ => true
  | .joypad _ => true
  | .sbm _ _ _ => true
  | .sbs _ _ => true
  | .tsync _ _ => true
  | .tack r _ => r != 0x00#8
  | .status _ => true
  | .frame _ => true

/-- The frame a form expands to; every byte the form does not name is 00 (R93). -/
def FrameForm.expand : FrameForm → Frame
  | .version maj min => frameOf 0x01#8 maj min 0x00#8 0#32
  | .joypad p => frameOf 0x65#8 p 0x00#8 0x00#8 0#32
  | .sbm v c t => frameOf 0x68#8 v c 0x00#8 t
  | .sbs v c => frameOf 0x69#8 v c 0x00#8 0#32
  | .tsync f t => frameOf 0x6A#8 0x00#8 (f.extractLsb' 8 8) (f.extractLsb' 0 8) t
  | .tack r f => frameOf 0x6A#8 r (f.extractLsb' 8 8) (f.extractLsb' 0 8) 0#32
  | .status s => frameOf 0x6C#8 s 0x00#8 0x00#8 0#32
  | .frame f => f

/-- The statements of a stimulus program (R93). -/
inductive Stmt where
  | inFrame (f : FrameForm) (eos : Bool)
  | inByte (b : Byte) (eos : Bool)
  | take
  | wr (a : CfgAddr) (v : Byte)
  | rd (a : CfgAddr)
  | reset
deriving DecidableEq, Repr

/-- The bytes of a frame as 8 ByteIn events, `eos` on the 8th only (R93). -/
def frameEvents (f : Frame) (eos : Bool) : List Event :=
  (f.pop.toList.map fun b => .byteIn b false) ++ [.byteIn f[7] eos]

/-- The events of a statement (R93). -/
def Stmt.events : Stmt → List Event
  | .inFrame f eos => frameEvents f.expand eos
  | .inByte b eos => [.byteIn b eos]
  | .take => [.take]
  | .wr a v => [.cfgWrite a v]
  | .rd a => [.cfgRead a]
  | .reset => [.reset]

/-- A stimulus program as the host's stimuli: its statements in order (R93). -/
def stimuli (p : List Stmt) : List Stimulus := p.flatMap fun t => t.events.map .event

end Sys2Proof.Machine
end

