-- ==== Sys2Proof/Machine/Present.lean ====
section
/-! DEFINITION. What a host reads off a result: the field list, the summary and the reference rendering
(40_decode.md R117 to R122), from the constant field descriptor table (10_state.md R33). -/

namespace Sys2Proof.Machine

/-- Which raw bytes of a result a field shows (R117). -/
inductive RawPart where
  | command | byte1 | byte2 | byte3 | bytes23 | bytes4to7
deriving DecidableEq, Repr

/-- Which slot of a result a field interprets (R117, R118). -/
inductive ValuePart where
  | none | kind | va | vb | vw | vt | label
deriving DecidableEq, Repr

/-- One row of the field descriptor table. -/
structure FieldDesc where
  name : String
  raw : RawPart
  value : ValuePart
deriving DecidableEq, Repr

/-- The five base entries; RAW gives "command" no interpretation (R117). -/
def baseFields (k : Kind) : List FieldDesc :=
  [⟨"command", .command, if k = .raw then .none else .kind⟩, ⟨"byte1", .byte1, .none⟩,
   ⟨"byte2", .byte2, .none⟩, ⟨"byte3", .byte3, .none⟩, ⟨"timestamp", .bytes4to7, .none⟩]

/-- The entries a kind appends; `sync` is `B1 == 0` (R117). -/
def kindFields (k : Kind) (sync : Bool) : List FieldDesc :=
  match k with
  | .none => []
  | .protocolVersion => [⟨"version_major", .byte1, .va⟩, ⟨"version_minor", .byte2, .vb⟩]
  | .joypad => [⟨"button_number", .byte1, .va⟩, ⟨"button_state", .byte1, .label⟩]
  | .sendByteMaster =>
    [⟨"byte_value", .byte1, .va⟩, ⟨"control", .byte2, .vb⟩, ⟨"speed", .byte2, .label⟩,
     ⟨"transfer_timestamp", .bytes4to7, .vt⟩]
  | .sendByteSlave => [⟨"byte_value", .byte1, .va⟩, ⟨"control", .byte2, .vb⟩]
  | .timestamp =>
    [⟨"transfer_mode", .byte1, .label⟩, ⟨"framecount", .bytes23, .vw⟩] ++
      (if sync then [⟨"sync_timestamp", .bytes4to7, .vt⟩] else [])
  | .status => [⟨"emulator_state", .byte1, .label⟩]
  | .unknown => []
  | .raw => []

/-- An interpreted value of a field. -/
inductive FieldValue where
  | kind (k : Kind)
  | byte (v : Byte)
  | half (v : Half)
  | word (v : Word)
  | label (l : Label)
deriving DecidableEq, Repr

/-- One entry of a field list: (name, raw bytes, interpreted value) (R117). -/
structure FieldEntry where
  name : String
  raw : List Byte
  value : Option FieldValue
deriving DecidableEq, Repr

/-- The raw bytes of a result that a descriptor names (R118). -/
def Res.rawPart (r : Res) : RawPart → List Byte
  | .command => [r.id]
  | .byte1 => [r.b1]
  | .byte2 => [r.b2]
  | .byte3 => [r.b3]
  | .bytes23 => [r.b2, r.b3]
  | .bytes4to7 => wordBytes r.ts

/-- The interpreted value of a result that a descriptor names (R118). -/
def Res.valuePart (r : Res) : ValuePart → Option FieldValue
  | .none => Option.none
  | .kind => some (.kind r.kind)
  | .va => some (.byte r.va)
  | .vb => some (.byte r.vb)
  | .vw => some (.half r.vw)
  | .vt => some (.word r.vt)
  | .label => some (.label r.label)

/-- A decoded result: STATUS = 0 and a kind. A Malformed result is none (R122), nor is the all-zero RES
after reset, which stands for "no result" (R31). -/
def Res.isDecoded (r : Res) : Bool := !r.status && r.kind != .none

/-- `FieldList(r)` (R117); a Malformed result has none (R122). -/
def fieldList (r : Res) : Option (List FieldEntry) :=
  if r.isDecoded then
    some ((baseFields r.kind ++ kindFields r.kind (r.b1 == 0#8)).map fun d =>
      ⟨d.name, r.rawPart d.raw, r.valuePart d.value⟩)
  else none

/-- One item of a summary (R119). -/
inductive SummaryItem where
  | version (major minor : Byte)
  | button (n : Byte)
  | state (l : Label)
  | value (v : Byte)
  | speed (l : Label)
  | timestamp (t : Word)
  | control (v : Byte)
  | mode (l : Label)
  | framecount (n : Half)
  | unknownId (id : Byte)
deriving DecidableEq, Repr

/-- `Summary(r)` (R119); a Malformed result has none (R122). -/
def summary (r : Res) : Option (List SummaryItem) :=
  if r.isDecoded then
    some (match r.kind with
      | .none => []
      | .protocolVersion => [.version r.va r.vb]
      | .joypad => [.button r.va, .state r.label]
      | .sendByteMaster => [.value r.va, .speed r.label, .timestamp r.vt]
      | .sendByteSlave => [.value r.va, .control r.vb]
      | .timestamp => [.mode r.label, .framecount r.vw] ++ (if r.b1 == 0#8 then [.timestamp r.vt] else [])
      | .status => [.state r.label]
      | .unknown => [.unknownId r.va]
      | .raw => [])
  else none

/-- The source's branch texts (R89). -/
def Label.text : Label → String
  | .none => ""
  | .pushed => "pushed"
  | .released => "released"
  | .highSpeed => "high speed"
  | .doubleSpeed => "double speed"
  | .activeTransferResponse => "active transfer response"
  | .synchronization => "synchronization"
  | .paused => "Emulator is paused"
  | .running => "Emulator is running"

/-- `dec(x)`: unsigned decimal with no leading zeros (R121). -/
def dec (n : Nat) : String := Nat.repr n

/-- `Render(r)`, the spec's reference wording (R121). The all-zero RES is no result and has no line. -/
def render (r : Res) : Option String :=
  if r.status then some ("Malformed frame (" ++ dec r.len.toNat ++ " bytes)")
  else
    match r.kind with
    | .none => Option.none
    | .protocolVersion => some ("Protocol version " ++ dec r.va.toNat ++ "." ++ dec r.vb.toNat)
    | .joypad => some ("Joypad: button " ++ dec r.va.toNat ++ " " ++ r.label.text)
    | .sendByteMaster =>
      some ("Send byte (master): value " ++ dec r.va.toNat ++ ", " ++ r.label.text ++ ", timestamp " ++
        dec r.vt.toNat)
    | .sendByteSlave => some ("Send byte (slave): value " ++ dec r.va.toNat ++ ", control " ++ dec r.vb.toNat)
    | .timestamp =>
      some ("Timestamp: " ++ r.label.text ++ ", framecount " ++ dec r.vw.toNat ++
        (if r.label = .synchronization then ", timestamp " ++ dec r.vt.toNat else ""))
    | .status => some ("Status: " ++ r.label.text)
    | .unknown => some ("Unknown command " ++ dec r.va.toNat)
    | .raw => some ""

end Sys2Proof.Machine
end

