-- ==== Sys2Proof/Safety.lean ====
section
/-! DEFINITION. The terms claims are stated in: runs, the invariant of the block, states that differ only in
stale bytes, and the results a run of bytes is to give. -/

namespace Sys2Proof.Machine

/-- `n` steps, stopping at the first stop. -/
def runWith (hasRaw : Bool) : Nat → State → Host.Outcome State Fault Refusal
  | 0, s => .next s
  | n + 1, s => andThen (stepWith hasRaw s) (runWith hasRaw n)

/-- What a bus value shows, field by field, at the bit positions of R30's table. -/
structure BusShows (w : Bus) (status : BitVec 1) (len : BitVec 4) (mode : BitVec 1) (kind label : BitVec 4)
    (flag : BitVec 1) (id b1 b2 b3 : Byte) (ts : Word) (va vb : Byte) (vw : Half) (vt : Word) : Prop where
  status_at : w.extractLsb' 0 1 = status
  len_at : w.extractLsb' 1 4 = len
  mode_at : w.extractLsb' 5 1 = mode
  kind_at : w.extractLsb' 6 4 = kind
  label_at : w.extractLsb' 10 4 = label
  flag_at : w.extractLsb' 14 1 = flag
  reserved_zero : w.extractLsb' 15 1 = 0#1
  id_at : w.extractLsb' 16 8 = id
  b1_at : w.extractLsb' 24 8 = b1
  b2_at : w.extractLsb' 32 8 = b2
  b3_at : w.extractLsb' 40 8 = b3
  ts_at : w.extractLsb' 48 32 = ts
  va_at : w.extractLsb' 80 8 = va
  vb_at : w.extractLsb' 88 8 = vb
  vw_at : w.extractLsb' 96 16 = vw
  vt_at : w.extractLsb' 112 32 = vt

/-- What an emit can produce (R30): a decoded result, RAW only where the raw layout is implemented (R92), or
Malformed(1) to Malformed(7) (R200). -/
def Emitted (hasRaw : Bool) (r : Res) : Prop :=
  (∃ (fmt : Bool) (f : Frame), (fmt = true → hasRaw = true) ∧ r = decodeFrame fmt f) ∨
  (∃ len : BitVec 4, 1 ≤ len.toNat ∧ len.toNat ≤ 7 ∧ r = malformedResult len)

/-- The invariant of the block: a pending result stands at a frame boundary (R24); FMT is 0 where it is
hardwired (R27); RES is an emitted result, or all zero with nothing pending (R30, R31); every result the host
was handed was an emitted one (R203); a byte is held back only while a result is pending (R52). -/
structure State.Inv (hasRaw : Bool) (s : State) : Prop where
  pending_at_boundary : s.ov = true → s.cnt = 0#3
  fmt_wired : hasRaw = false → s.fmt = false
  res_shape : (s.res = Res.zero ∧ s.ov = false) ∨ Emitted hasRaw s.res
  taken_shape : ∀ r ∈ s.taken, Emitted hasRaw r
  held_waits : s.held.isSome = true → s.ov = true

/-- Two states that differ at most in stale bytes: FB[i] for i ≥ CNT (R23). -/
structure SameButStale (s t : State) : Prop where
  rest : t = { s with fb := t.fb }
  fresh : ∀ (i : Nat) (h : i < 7), i < s.cnt.toNat → s.fb[i] = t.fb[i]

/-- The host's writes at the configuration port before a byte, and the byte. -/
structure RunByte where
  writes : List (CfgAddr × Byte)
  data : Byte
deriving DecidableEq, Repr

/-- CTRL.FMT after writes, from FMT `m` (R174). -/
def layoutAfter (hasRaw m : Bool) (ws : List (CfgAddr × Byte)) : Bool :=
  ws.foldl (fun m w => if w.1 = 0#2 && hasRaw then w.2.getLsbD 0 else m) m

/-- The events of a run whose first byte has position `k`: eos on the last byte only, a Take after every emit
(R177). -/
def runEvents : Nat → List RunByte → List Event
  | _, [] => []
  | _, [x] => x.writes.map (fun w => .cfgWrite w.1 w.2) ++ [.byteIn x.data true, .take]
  | k, x :: y :: xs =>
    x.writes.map (fun w => .cfgWrite w.1 w.2) ++ .byteIn x.data false ::
      ((if k % 8 = 7 then [.take] else []) ++ runEvents (k + 1) (y :: xs))

/-- Frame j of a run: bytes x(8j) to x(8j+7) (R57, R177). -/
def runFrame (xs : List RunByte) (j : Nat) : Frame :=
  Vector.ofFn fun i => ((xs[8 * j + i.val]?).map RunByte.data).getD 0x00#8

/-- CTRL.FMT at the acceptance of byte `n` of a run that starts under FMT `m` (R177). -/
def runLayout (hasRaw m : Bool) (xs : List RunByte) (n : Nat) : Bool :=
  layoutAfter hasRaw m ((xs.take (n + 1)).flatMap RunByte.writes)

/-- The results R177 states for a run: Decode of each whole frame under the layout at its completing byte,
then Malformed(L mod 8) if L mod 8 ≠ 0. -/
def runResults (hasRaw m : Bool) (xs : List RunByte) : List Res :=
  (List.range (xs.length / 8)).map
    (fun j => decodeFrame (runLayout hasRaw m xs (8 * j + 7) && hasRaw) (runFrame xs j)) ++
  (if xs.length % 8 = 0 then [] else [malformedResult (BitVec.ofNat 4 (xs.length % 8))])

/-- A stimulus that neither takes the pending result nor resets the block (R244). -/
def Stimulus.quiet : Stimulus → Bool
  | .event (.byteIn _ _) => true
  | .event .take => false
  | .event (.cfgWrite _ _) => true
  | .event (.cfgRead _) => true
  | .event .reset => false
  | .edge p => !p.rst && !p.outReady

/-- The host keeps the byte that the last edge held back (R66). DESIGN CHOICE: an edge with `rst = 1` asks
nothing of it (notes/assumptions/6.md). -/
def keepsHeldByte (p : Pins) (s : State) : Prop :=
  ∀ (d : Byte) (eos : Bool), s.held = some (d, eos) → p.rst = false → p.inValid = true →
    p.inData = d ∧ p.inEos = eos

end Sys2Proof.Machine
end

