-- ==== Sys2Proof/Certificates/Slice0/Obligations.lean ====
section
/-! DEFINITION. The statements for the provers. Bit positions, codes and formulas are written here from the
spec's tables, not taken from the model's own helpers, wherever a statement is about a value. -/

open Sys2Proof Sys2Proof.Machine

/-! ## Encoding -/

/-- Decoding the frame of a well-formed instruction, under the layout its row belongs to, gives it back, with
every operand at every value (30_encoding.md R80, R82, R86, R92). -/
def Obligations.EncodeThenDecodeIsIdentity : Prop :=
  ∀ i : Instr, i.wellFormed = true → decodeBytes i.layout (encode i).toList = .ok i

/-- Every frame decodes, under both layouts, to a well-formed instruction of that layout that encodes back to
the very frame: no bit of a frame is dropped and no frame is illegal (R80, R91, R110). -/
def Obligations.EveryFrameDecodesAndReencodes : Prop :=
  ∀ (fmt : Bool) (f : Frame),
    (decode fmt f).wellFormed = true ∧ (decode fmt f).layout = fmt ∧ encode (decode fmt f) = f

/-- R87: the ids that decode as Unknown are 0x00, 0x02 to 0x64, 0x66, 0x67, 0x6B and 0x6D to 0xFF, 250 of
them; each of the other six has its own kind. -/
def Obligations.UnknownIdsAreTheListedOnes : Prop :=
  (∀ f : Frame, (decode false f = .unknown f[0] f[1] f[2] f[3] (be32 f[4] f[5] f[6] f[7])) ↔
    (f[0].toNat = 0x00 ∨ (0x02 ≤ f[0].toNat ∧ f[0].toNat ≤ 0x64) ∨ f[0].toNat = 0x66 ∨ f[0].toNat = 0x67 ∨
      f[0].toNat = 0x6B ∨ 0x6D ≤ f[0].toNat)) ∧
  ((List.range 256).filter fun n =>
    n = 0x00 ∨ (0x02 ≤ n ∧ n ≤ 0x64) ∨ n = 0x66 ∨ n = 0x67 ∨ n = 0x6B ∨ 0x6D ≤ n).length = 250 ∧
  [0x01#8, 0x65#8, 0x68#8, 0x69#8, 0x6A#8, 0x6C#8].Nodup ∧
  (∀ (f g : Frame), f[0] ≠ g[0] → f[0] ∈ [0x01#8, 0x65#8, 0x68#8, 0x69#8, 0x6A#8, 0x6C#8] →
    (decodeFrame false f).kind ≠ (decodeFrame false g).kind)

/-- A few words written out from the encodings of the opcode table decode to the instructions they stand for
(30_encoding.md R80, R82, R86; the frames of 95_test_vectors.md PV3, JOY1, SBM5, SBS1, TS2, ST1, UNK9). -/
def Obligations.SampleWordsDecode : Prop :=
  decodeTableWord 64 0x0101040000000000 = some (.protocolVersion 0x01#8 0x04#8 0x00#8 0#32) ∧
  decodeTableWord 64 0x6504000000000000 = some (.joypad 0x04#8 0x00#8 0x00#8 0#32) ∧
  decodeTableWord 64 0x6801017712345678 = some (.sendByteMaster 0x01#8 0x01#8 0x77#8 0x12345678#32) ∧
  decodeTableWord 64 0x695A030000000007 = some (.sendByteSlave 0x5A#8 0x03#8 0x00#8 7#32) ∧
  decodeTableWord 64 0x6A00FFFF12345678 = some (.timestamp 0x00#8 0xFF#8 0xFF#8 0x12345678#32) ∧
  decodeTableWord 64 0x6C01000000000000 = some (.status 0x01#8 0x00#8 0x00#8 0#32) ∧
  decodeTableWord 64 0x6DAABBCC11223344 = some (.unknown 0x6D#8 0xAA#8 0xBB#8 0xCC#8 0x11223344#32) ∧
  decodeBytes true [0x68#8, 0xAB#8, 0x02#8, 0x00#8, 0x00#8, 0x00#8, 0x01#8, 0x2C#8] =
    .ok (.raw 0x68#8 0xAB#8 0x02#8 0x00#8 300#32)

/-- R83: every interpreted value of a frame at its bits of the 64-bit word W, zero-extended to its slot. -/
def Obligations.InterpretedValuesAtTheirBitsOfW : Prop :=
  ∀ w : FrameWord,
    let r := decodeFrame false (frameOfWord w)
    let id := w.extractLsb' 56 8
    let b1 := w.extractLsb' 48 8
    (id = 0x01#8 → r.va = b1 ∧ r.vb = w.extractLsb' 40 8) ∧
    (id = 0x65#8 → r.va = b1 &&& 0x04#8 ∧ r.va = (w.extractLsb' 50 1).setWidth 8 <<< 2 ∧
      r.flag = w.getLsbD 50) ∧
    (id = 0x68#8 → r.va = b1 ∧ r.vb = w.extractLsb' 40 8 ∧ r.flag = w.getLsbD 41 ∧
      r.vt = w.extractLsb' 0 32) ∧
    (id = 0x69#8 → r.va = b1 ∧ r.vb = w.extractLsb' 40 8) ∧
    (id = 0x6A#8 → r.vw = w.extractLsb' 32 16 ∧ r.flag = (b1 == 0#8) ∧
      (b1 = 0#8 → r.vt = w.extractLsb' 0 32)) ∧
    (id = 0x6C#8 → r.flag = w.getLsbD 48) ∧
    (id ∉ [0x01#8, 0x65#8, 0x68#8, 0x69#8, 0x6A#8, 0x6C#8] → r.va = id)

/-! ## The decode function -/

/-- R112: every decoded result shows STATUS 0, LEN 8, MODE = fmt and the five raw fields on the bus. -/
def Obligations.DecodedResultsShareTheirBaseFields : Prop :=
  ∀ (fmt : Bool) (f : Frame),
    let w := (decodeFrame fmt f).pack
    w.extractLsb' 0 1 = 0#1 ∧ w.extractLsb' 1 4 = 8#4 ∧ w.extractLsb' 5 1 = BitVec.ofBool fmt ∧
    w.extractLsb' 16 8 = f[0] ∧ w.extractLsb' 24 8 = f[1] ∧ w.extractLsb' 32 8 = f[2] ∧
    w.extractLsb' 40 8 = f[3] ∧ w.extractLsb' 48 32 = f[4] ++ f[5] ++ f[6] ++ f[7]

/-- R90: the slots (KIND, VA, VB, VW, VT, FLAG, LABEL) every kind writes, and those it leaves 0. -/
def Obligations.SlotsEachKindWrites : Prop :=
  let slots := fun r : Res => (r.kind.code, r.va, r.vb, r.vw, r.vt, r.flag, r.label.code)
  (∀ f : Frame,
    let ts : Word := f[4] ++ f[5] ++ f[6] ++ f[7]
    slots (decodeFrame false f) =
      if f[0] = 0x01#8 then (1#4, f[1], f[2], 0#16, 0#32, false, 0#4)
      else if f[0] = 0x65#8 then
        (2#4, f[1] &&& 0x04#8, 0#8, 0#16, 0#32, f[1].getLsbD 2, if f[1].getLsbD 2 then 1#4 else 2#4)
      else if f[0] = 0x68#8 then
        (3#4, f[1], f[2], 0#16, ts, f[2].getLsbD 1, if f[2].getLsbD 1 then 3#4 else 4#4)
      else if f[0] = 0x69#8 then (4#4, f[1], f[2], 0#16, 0#32, false, 0#4)
      else if f[0] = 0x6A#8 then
        (5#4, 0#8, 0#8, f[2] ++ f[3], if f[1] = 0#8 then ts else 0#32, f[1] == 0#8,
          if f[1] = 0#8 then 6#4 else 5#4)
      else if f[0] = 0x6C#8 then
        (6#4, 0#8, 0#8, 0#16, 0#32, f[1].getLsbD 0, if f[1].getLsbD 0 then 7#4 else 8#4)
      else (7#4, f[0], 0#8, 0#16, 0#32, false, 0#4)) ∧
  (∀ f : Frame, slots (decodeFrame true f) = (8#4, 0#8, 0#8, 0#16, 0#32, false, 0#4)) ∧
  (∀ len : BitVec 4, slots (malformedResult len) = (0#4, 0#8, 0#8, 0#16, 0#32, false, 0#4))

/-- R111: a buffer decodes exactly when it holds 8 bytes; any other length n gives Malformed(n). -/
def Obligations.BufferDecodesOnlyAtEightBytes : Prop :=
  (∀ (fmt : Bool) (buf : List Byte), buf.length ≠ 8 → decodeBuf fmt buf = .malformed buf.length) ∧
  (∀ (fmt : Bool) (f : Frame), decodeBuf fmt f.toList = .decoded (decodeFrame fmt f))

/-- The 144-bit bus and the record are two forms of one value: unpacking a packed record gives it back, and a
bus value that unpacks is the packing of what it unpacks to (10_state.md R30; 93_implementation_defined.md
I11). -/
def Obligations.BusAndRecordAgree : Prop :=
  (∀ r : Res, Res.unpack r.pack = some r) ∧
  (∀ (w : Bus) (r : Res), Res.unpack w = some r → r.pack = w)

/-- R84: where two views cover the same bits, both are produced. -/
def Obligations.OverlappingViewsAreBothProduced : Prop :=
  ∀ f : Frame,
    let r := decodeFrame false f
    (f[0] = 0x65#8 → r.b1 = f[1] ∧ r.va = f[1] &&& 0x04#8 ∧ r.flag = f[1].getLsbD 2 ∧
      r.va.toNat = 4 * r.flag.toNat) ∧
    (f[0] = 0x6A#8 → r.b2 = f[2] ∧ r.b3 = f[3] ∧ r.vw = f[2] ++ f[3]) ∧
    (f[0] = 0x68#8 → r.b2 = f[2] ∧ r.vb = f[2] ∧ r.flag = f[2].getLsbD 1)

/-! ## The instructions. Each: its frames decode to it; it completes in EVERY state, with the result register
as the kind's rule writes it, OV set, CNT 0 and every other piece of state as it was; the rule's example. The
slots are the kind's rule's; OV, CNT and the frame are R171's, which an event reaches only at CNT = 7 and OV = 0;
that exec does the same in any other state is the model's choice (notes/assumptions/10.md, DESIGN CHOICE). -/

/-- Slots by R140; OV, CNT and the frame by R171; that exec does so in every state, not only at
CNT = 7 and OV = 0, is the model's choice (notes/assumptions/10.md). -/
def Obligations.ProtocolVersionEmitsMajorAndMinor : Prop :=
  (∀ f : Frame, f[0] = 0x01#8 →
    decode false f = .protocolVersion f[1] f[2] f[3] (f[4] ++ f[5] ++ f[6] ++ f[7])) ∧
  (∀ (b1 b2 b3 : Byte) (ts : Word) (s : State), ∃ r : Res,
    exec (.protocolVersion b1 b2 b3 ts) s = .next { s with res := r, ov := true, cnt := 0#3 } ∧
    BusShows r.pack 0#1 8#4 0#1 1#4 0#4 0#1 0x01#8 b1 b2 b3 ts b1 b2 0#16 0#32) ∧
  render (decodeFrame false #v[0x01#8, 0x01#8, 0x04#8, 0#8, 0#8, 0#8, 0#8, 0#8]) =
    some "Protocol version 1.4" ∧
  render (decodeFrame false #v[0x01#8, 0x02#8, 0#8, 0#8, 0#8, 0#8, 0#8, 0#8]) = some "Protocol version 2.0"

/-- Slots by R141; OV, CNT and the frame by R171; that exec does so in every state, not only at
CNT = 7 and OV = 0, is the model's choice (notes/assumptions/10.md). -/
def Obligations.JoypadEmitsButtonAndState : Prop :=
  (∀ f : Frame, f[0] = 0x65#8 → decode false f = .joypad f[1] f[2] f[3] (f[4] ++ f[5] ++ f[6] ++ f[7])) ∧
  (∀ (b1 b2 b3 : Byte) (ts : Word) (s : State), ∃ r : Res,
    let pushed : BitVec 1 := ((b1 >>> 2) &&& 1#8).setWidth 1
    exec (.joypad b1 b2 b3 ts) s = .next { s with res := r, ov := true, cnt := 0#3 } ∧
    BusShows r.pack 0#1 8#4 0#1 2#4 (if pushed = 1#1 then 1#4 else 2#4) pushed 0x65#8 b1 b2 b3 ts
      (b1 &&& 0x04#8) 0#8 0#16 0#32) ∧
  render (decodeFrame false #v[0x65#8, 0x04#8, 0#8, 0#8, 0#8, 0#8, 0#8, 0#8]) = some "Joypad: button 4 pushed"

/-- Slots by R142; OV, CNT and the frame by R171; that exec does so in every state, not only at
CNT = 7 and OV = 0, is the model's choice (notes/assumptions/10.md). -/
def Obligations.SendByteMasterEmitsValueSpeedAndTime : Prop :=
  (∀ f : Frame, f[0] = 0x68#8 →
    decode false f = .sendByteMaster f[1] f[2] f[3] (f[4] ++ f[5] ++ f[6] ++ f[7])) ∧
  (∀ (b1 b2 b3 : Byte) (ts : Word) (s : State), ∃ r : Res,
    let high : BitVec 1 := ((b2 >>> 1) &&& 1#8).setWidth 1
    exec (.sendByteMaster b1 b2 b3 ts) s = .next { s with res := r, ov := true, cnt := 0#3 } ∧
    BusShows r.pack 0#1 8#4 0#1 3#4 (if high = 1#1 then 3#4 else 4#4) high 0x68#8 b1 b2 b3 ts b1 b2 0#16 ts) ∧
  render (decodeFrame false #v[0x68#8, 0xAB#8, 0x02#8, 0#8, 0#8, 0#8, 0x01#8, 0x2C#8]) =
    some "Send byte (master): value 171, high speed, timestamp 300"

/-- Slots by R143; OV, CNT and the frame by R171; that exec does so in every state, not only at
CNT = 7 and OV = 0, is the model's choice (notes/assumptions/10.md). -/
def Obligations.SendByteSlaveEmitsValueAndControl : Prop :=
  (∀ f : Frame, f[0] = 0x69#8 →
    decode false f = .sendByteSlave f[1] f[2] f[3] (f[4] ++ f[5] ++ f[6] ++ f[7])) ∧
  (∀ (b1 b2 b3 : Byte) (ts : Word) (s : State), ∃ r : Res,
    exec (.sendByteSlave b1 b2 b3 ts) s = .next { s with res := r, ov := true, cnt := 0#3 } ∧
    BusShows r.pack 0#1 8#4 0#1 4#4 0#4 0#1 0x69#8 b1 b2 b3 ts b1 b2 0#16 0#32) ∧
  render (decodeFrame false #v[0x69#8, 0x5A#8, 0x03#8, 0#8, 0#8, 0#8, 0#8, 0x07#8]) =
    some "Send byte (slave): value 90, control 3"

/-- Slots by R144; OV, CNT and the frame by R171; that exec does so in every state, not only at
CNT = 7 and OV = 0, is the model's choice (notes/assumptions/10.md). -/
def Obligations.TimestampEmitsFramecountAndBranch : Prop :=
  (∀ f : Frame, f[0] = 0x6A#8 → decode false f = .timestamp f[1] f[2] f[3] (f[4] ++ f[5] ++ f[6] ++ f[7])) ∧
  (∀ (b1 b2 b3 : Byte) (ts : Word) (s : State), ∃ r : Res,
    exec (.timestamp b1 b2 b3 ts) s = .next { s with res := r, ov := true, cnt := 0#3 } ∧
    (b1 = 0#8 → BusShows r.pack 0#1 8#4 0#1 5#4 6#4 1#1 0x6A#8 b1 b2 b3 ts 0#8 0#8 (b2 ++ b3) ts) ∧
    (b1 ≠ 0#8 → BusShows r.pack 0#1 8#4 0#1 5#4 5#4 0#1 0x6A#8 b1 b2 b3 ts 0#8 0#8 (b2 ++ b3) 0#32)) ∧
  render (decodeFrame false #v[0x6A#8, 0#8, 0#8, 0x05#8, 0#8, 0#8, 0#8, 0#8]) =
    some "Timestamp: synchronization, framecount 5, timestamp 0"

/-- Slots by R145; OV, CNT and the frame by R171; that exec does so in every state, not only at
CNT = 7 and OV = 0, is the model's choice (notes/assumptions/10.md). -/
def Obligations.StatusEmitsPausedOrRunning : Prop :=
  (∀ f : Frame, f[0] = 0x6C#8 → decode false f = .status f[1] f[2] f[3] (f[4] ++ f[5] ++ f[6] ++ f[7])) ∧
  (∀ (b1 b2 b3 : Byte) (ts : Word) (s : State), ∃ r : Res,
    let paused : BitVec 1 := (b1 &&& 1#8).setWidth 1
    exec (.status b1 b2 b3 ts) s = .next { s with res := r, ov := true, cnt := 0#3 } ∧
    BusShows r.pack 0#1 8#4 0#1 6#4 (if paused = 1#1 then 7#4 else 8#4) paused 0x6C#8 b1 b2 b3 ts 0#8 0#8
      0#16 0#32) ∧
  render (decodeFrame false #v[0x6C#8, 0x01#8, 0#8, 0#8, 0#8, 0#8, 0#8, 0#8]) =
    some "Status: Emulator is paused"

/-- Slots by R146; OV, CNT and the frame by R171; that exec does so in every state, not only at
CNT = 7 and OV = 0, is the model's choice (notes/assumptions/10.md), and so is
that the exec clause holds for every id, the six known ones too, which no frame decodes to Unknown (R87). -/
def Obligations.UnknownEmitsTheRawId : Prop :=
  (∀ f : Frame, f[0] ∉ [0x01#8, 0x65#8, 0x68#8, 0x69#8, 0x6A#8, 0x6C#8] →
    decode false f = .unknown f[0] f[1] f[2] f[3] (f[4] ++ f[5] ++ f[6] ++ f[7])) ∧
  (∀ (id b1 b2 b3 : Byte) (ts : Word) (s : State), ∃ r : Res,
    exec (.unknown id b1 b2 b3 ts) s = .next { s with res := r, ov := true, cnt := 0#3 } ∧
    BusShows r.pack 0#1 8#4 0#1 7#4 0#4 0#1 id b1 b2 b3 ts id 0#8 0#16 0#32) ∧
  render (decodeFrame false #v[0xFF#8, 0#8, 0#8, 0#8, 0#8, 0#8, 0#8, 0#8]) = some "Unknown command 255"

/-- R147: it is reached only when HAS_RAW_MODE is true and CTRL.FMT is 1, for any id; its field list has the
five base entries and no interpretation, its summary is empty. Slots by R147; OV, CNT and the frame by R171; that exec
does so in every state, not only at CNT = 7, OV = 0 and FMT = 1, is the model's choice
(notes/assumptions/10.md). -/
def Obligations.RawEmitsOnlyRawFields : Prop :=
  (∀ (hasRaw : Bool) (s : State) (f : Frame),
    (decode (s.layout hasRaw) f).layout = true ↔ (hasRaw = true ∧ s.fmt = true)) ∧
  (∀ f : Frame, decode true f = .raw f[0] f[1] f[2] f[3] (f[4] ++ f[5] ++ f[6] ++ f[7])) ∧
  (∀ (id b1 b2 b3 : Byte) (ts : Word) (s : State), ∃ r : Res,
    exec (.raw id b1 b2 b3 ts) s = .next { s with res := r, ov := true, cnt := 0#3 } ∧
    BusShows r.pack 0#1 8#4 1#1 8#4 0#4 0#1 id b1 b2 b3 ts 0#8 0#8 0#16 0#32) ∧
  (∀ f : Frame,
    fieldList (decodeFrame true f) =
      some [⟨"command", [f[0]], none⟩, ⟨"byte1", [f[1]], none⟩, ⟨"byte2", [f[2]], none⟩,
        ⟨"byte3", [f[3]], none⟩, ⟨"timestamp", [f[4], f[5], f[6], f[7]], none⟩] ∧
    summary (decodeFrame true f) = some [] ∧ render (decodeFrame true f) = some "")

/-! ## The events. In each, the model's own fields move as they do for every event: the host's list loses the
event, and a byte that the edge before held back is forgotten, but for CfgRead (notes/assumptions/2.md, 6.md). -/

/-- The eighth byte of a frame runs the instruction the decoder reads from FB[0..6] and that byte under the
layout in force, whatever eos is; around it the step only drops the event from the host's list and forgets a
byte that an edge held back (42_stream_ops.md R171; the model's own fields: notes/assumptions/2.md, 6.md). -/
def Obligations.StepRunsTheDecodedInstruction : Prop :=
  ∀ (s : State) (d : Byte) (eos : Bool) (rest : List Stimulus) (i : Instr),
    s.inputs = .event (.byteIn d eos) :: rest → s.ov = false → s.cnt = 7#3 →
    decodeBytes (s.layout Config.hasRawMode)
      [s.fb[0], s.fb[1], s.fb[2], s.fb[3], s.fb[4], s.fb[5], s.fb[6], d] = .ok i →
    step s = exec i { s with inputs := rest, held := none }

/-- R170: a byte that neither completes a frame nor ends a run is stored at FB[CNT], and CNT advances by 1. -/
def Obligations.ByteInStoresAndAdvances : Prop :=
  ∀ (hasRaw : Bool) (s : State) (d : Byte) (rest : List Stimulus),
    s.inputs = .event (.byteIn d false) :: rest → s.ov = false → s.cnt.toNat < 7 →
    ∃ t : State, stepWith hasRaw s = .next t ∧ t = { s with inputs := rest, held := none, cnt := t.cnt, fb := t.fb } ∧
      t.cnt.toNat = s.cnt.toNat + 1 ∧
      ∀ (k : Nat) (h : k < 7), t.fb[k] = if k = s.cnt.toNat then d else s.fb[k]

/-- R171: the byte at CNT = 7 emits Decode of FB[0..6] and that byte under CTRL.FMT as it stands before the
event, and CNT returns to 0; FB is unchanged. -/
def Obligations.ByteInCompletesAFrame : Prop :=
  ∀ (hasRaw : Bool) (s : State) (d : Byte) (eos : Bool) (rest : List Stimulus),
    s.inputs = .event (.byteIn d eos) :: rest → s.ov = false → s.cnt = 7#3 →
    stepWith hasRaw s = .next
      { s with
        inputs := rest, held := none, cnt := 0#3, ov := true
        res := decodeFrame (s.fmt && hasRaw)
          #v[s.fb[0], s.fb[1], s.fb[2], s.fb[3], s.fb[4], s.fb[5], s.fb[6], d] }

/-- R172: a byte with eos at CNT < 7 emits Malformed(CNT + 1), which shows STATUS 1, LEN and nothing else, and
CNT returns to 0. -/
def Obligations.ByteInEndsARunWithMalformed : Prop :=
  ∀ (hasRaw : Bool) (s : State) (d : Byte) (rest : List Stimulus),
    s.inputs = .event (.byteIn d true) :: rest → s.ov = false → s.cnt.toNat < 7 →
    ∃ t : State, stepWith hasRaw s = .next t ∧
      t = { s with inputs := rest, held := none, cnt := 0#3, ov := true, fb := t.fb, res := t.res } ∧
      (∀ (k : Nat) (h : k < 7), t.fb[k] = if k = s.cnt.toNat then d else s.fb[k]) ∧
      BusShows t.res.pack 1#1 (BitVec.ofNat 4 (s.cnt.toNat + 1)) 0#1 0#4 0#4 0#1 0#8 0#8 0#8 0#8 0#32 0#8 0#8
        0#16 0#32 ∧
      t.res.len.toNat = s.cnt.toNat + 1

/-- R173: Take hands RES to the host and clears OV; RES keeps its value; with OV = 0 there is no such step. -/
def Obligations.TakeDeliversAndClears : Prop :=
  ∀ (hasRaw : Bool) (s : State) (rest : List Stimulus), s.inputs = .event .take :: rest →
    (s.ov = true → stepWith hasRaw s =
      .next { s with inputs := rest, held := none, ov := false, taken := s.taken ++ [s.res] }) ∧
    (s.ov = false → eventStep hasRaw .take s = none)

/-- R174: CfgWrite, in any state, sets CTRL.FMT to bit 0 of the value at address 0 when HAS_RAW_MODE is true,
and has no effect otherwise. -/
def Obligations.CfgWriteSetsOnlyFmt : Prop :=
  ∀ (hasRaw : Bool) (s : State) (a : CfgAddr) (v : Byte) (rest : List Stimulus),
    s.inputs = .event (.cfgWrite a v) :: rest →
    ((a = 0#2 ∧ hasRaw = true) → stepWith hasRaw s =
      .next { s with inputs := rest, held := none, fmt := v.getLsbD 0 }) ∧
    ((a ≠ 0#2 ∨ hasRaw = false) → stepWith hasRaw s = .next { s with inputs := rest, held := none })

/-- R175: CfgRead, in any state, returns zext(FMT), zext(OV ++ CNT) or 0x00 by address, and changes no state of
the block. -/
def Obligations.CfgReadReturnsTheRegister : Prop :=
  ∀ (hasRaw : Bool) (s : State) (a : CfgAddr) (rest : List Stimulus),
    s.inputs = .event (.cfgRead a) :: rest →
    ∃ v : Byte, stepWith hasRaw s = .next { s with inputs := rest, reads := s.reads ++ [v] } ∧
      (a = 0#2 → v.toNat = (s.fmt && hasRaw).toNat) ∧
      (a = 1#2 → v.toNat = 8 * s.ov.toNat + s.cnt.toNat) ∧
      (a = 2#2 ∨ a = 3#2 → v = 0x00#8)

/-- Step(s, e) is a partial function: none for a ByteIn while a result is pending and for a Take while none is,
one next state for every other event (R176); an event with no step leaves the state, the event still first in
line, and with no event the block keeps all its state (R214, R244; notes/assumptions/3.md). -/
def Obligations.StepIsPartialAndSingleValued : Prop :=
  (∀ (hasRaw : Bool) (e : Event) (s : State),
    (eventStep hasRaw e s = none ↔ ((∃ d eos, e = .byteIn d eos) ∧ s.ov = true) ∨ (e = .take ∧ s.ov = false)) ∧
    (eventStep hasRaw e s ≠ none → ∃ t, eventStep hasRaw e s = some (.next t))) ∧
  (∀ (hasRaw : Bool) (e : Event) (s : State) (rest : List Stimulus), s.inputs = .event e :: rest →
    eventStep hasRaw e s = none → stepWith hasRaw s = .next s) ∧
  (∀ (hasRaw : Bool) (s : State), s.inputs = [] → stepWith hasRaw s = .next s)

/-- R230: Reset, in any state, sets every element of the architectural state to 0 and hands the host nothing;
STATUS and CTRL then read 0x00. -/
def Obligations.ResetClearsTheBlock : Prop :=
  ∀ (hasRaw : Bool) (s : State) (rest : List Stimulus), s.inputs = .event .reset :: rest →
    ∃ t : State, stepWith hasRaw s = .next t ∧
      t = { s with inputs := rest, held := none, cnt := 0#3, fb := t.fb, ov := false, res := t.res, fmt := false } ∧
      (∀ (k : Nat) (h : k < 7), t.fb[k] = 0x00#8) ∧ t.res.pack = 0#144 ∧
      t.cfgByte hasRaw 1#2 = 0x00#8 ∧ t.cfgByte hasRaw 0#2 = 0x00#8

/-- R27: without the raw layout, CTRL reads 0x00 in every state, a write to it changes nothing, and no frame is
decoded as RAW or with MODE 1. -/
def Obligations.FmtIsHardwiredWithoutRawMode : Prop :=
  ∀ s : State,
    s.cfgByte false 0#2 = 0x00#8 ∧ s.layout false = false ∧
    (∀ (v : Byte) (rest : List Stimulus), s.inputs = .event (.cfgWrite 0#2 v) :: rest →
      stepWith false s = .next { s with inputs := rest, held := none }) ∧
    (∀ (d : Byte) (eos : Bool) (rest : List Stimulus), s.inputs = .event (.byteIn d eos) :: rest → s.ov = false →
      s.cnt = 7#3 → ∃ t : State, stepWith false s = .next t ∧ t.ov = true ∧ t.res.mode = false ∧ t.res.kind ≠ .raw)

/-- Reading changes nothing, writing CTRL twice is writing it once, and writes elsewhere do nothing
(20_memory.md R61). -/
def Obligations.ConfigurationAccessesAreIdempotent : Prop :=
  ∀ (hasRaw : Bool) (s : State) (a : CfgAddr) (v : Byte),
    (s.cfgStore hasRaw a v).cfgStore hasRaw a v = s.cfgStore hasRaw a v ∧
    (a ≠ 0#2 → s.cfgStore hasRaw a v = s) ∧
    (∀ b : CfgAddr, (cfgReadOut hasRaw b s).cfgByte hasRaw a = s.cfgByte hasRaw a) ∧
    (∀ b : CfgAddr, b ≠ 0#2 → (s.cfgStore hasRaw a v).cfgByte hasRaw b = s.cfgByte hasRaw b)

/-- STATUS shows CNT in bits 2:0, OV in bit 3 and 0 in bits 7:4 in every state, and in every state of the
invariant it reads 0x00 to 0x07 or 0x08 and no other value (10_state.md R24, R28). -/
def Obligations.StatusReadsOnlyLegalValues : Prop :=
  ∀ (hasRaw : Bool) (s : State),
    (s.cfgByte hasRaw 1#2).extractLsb' 0 3 = s.cnt ∧ (s.cfgByte hasRaw 1#2).getLsbD 3 = s.ov ∧
    (s.cfgByte hasRaw 1#2).extractLsb' 4 4 = 0#4 ∧
    (s.Inv hasRaw → (s.cfgByte hasRaw 1#2).toNat ≤ 8)

/-- The layout is read when the frame completes: a write of CTRL that lands inside a frame changes the layout
the whole frame is decoded under (70_reset_and_hazards.md R241). -/
def Obligations.LayoutIsSampledAtCompletion : Prop :=
  ∀ (s : State) (v d : Byte) (eos : Bool) (rest : List Stimulus),
    s.inputs = .event (.cfgWrite 0#2 v) :: .event (.byteIn d eos) :: rest → s.ov = false → s.cnt = 7#3 →
    ∃ t : State, runWith true 2 s = .next t ∧ t.inputs = rest ∧ t.ov = true ∧ t.cnt = 0#3 ∧
      t.res = decodeFrame (v.getLsbD 0) #v[s.fb[0], s.fb[1], s.fb[2], s.fb[3], s.fb[4], s.fb[5], s.fb[6], d]

/-- At CNT = 7 eos makes no difference: the frame decodes and no MalformedFrame is raised
(60_exceptions.md R205). -/
def Obligations.CompletionBeatsEndOfRun : Prop :=
  ∀ (hasRaw : Bool) (s : State) (d : Byte) (rest : List Stimulus), s.ov = false → s.cnt = 7#3 →
    stepWith hasRaw { s with inputs := .event (.byteIn d true) :: rest } =
      stepWith hasRaw { s with inputs := .event (.byteIn d false) :: rest } ∧
    ∃ t : State, stepWith hasRaw { s with inputs := .event (.byteIn d true) :: rest } = .next t ∧
      t.res.status = false ∧ t.res.len = 8#4

/-- CNT stays, advances by exactly 1, or returns to 0; it advances only for an accepted byte, and it returns
to 0 from elsewhere only when a frame completes, a run ends or the block is reset (10_state.md R21). -/
def Obligations.CntAdvancesByOneOrReturnsToZero : Prop :=
  ∀ (hasRaw : Bool) (s t : State) (e : Event) (rest : List Stimulus),
    s.inputs = .event e :: rest → stepWith hasRaw s = .next t →
    t.cnt = s.cnt ∨
    (t.cnt.toNat = s.cnt.toNat + 1 ∧ s.ov = false ∧ ∃ d, e = .byteIn d false) ∨
    (t.cnt = 0#3 ∧ ((∃ d eos, e = .byteIn d eos ∧ s.ov = false ∧ t.ov = true) ∨ e = .reset))

/-- FB[i] is written only by an accepted byte when CNT = i before the event, and by Reset (10_state.md R22). -/
def Obligations.FrameBufferIsWrittenOnlyAtCnt : Prop :=
  ∀ (hasRaw : Bool) (s t : State) (e : Event) (rest : List Stimulus),
    s.inputs = .event e :: rest → stepWith hasRaw s = .next t →
    ∀ (i : Nat) (h : i < 7), t.fb[i] ≠ s.fb[i] →
      (e = .reset ∧ t.fb[i] = 0x00#8) ∨ (∃ d eos, e = .byteIn d eos ∧ s.ov = false ∧ s.cnt.toNat = i ∧ t.fb[i] = d)

/-- R31: RES keeps its value until the next emit or reset; Take leaves it; Reset makes it all zero, a pattern no
emit produces. -/
def Obligations.ResKeepsItsValueUntilEmitOrReset : Prop :=
  (∀ (hasRaw : Bool) (s t : State) (e : Event) (rest : List Stimulus),
    s.inputs = .event e :: rest → stepWith hasRaw s = .next t →
    (t.res = s.res ∨ (∃ d eos, e = .byteIn d eos ∧ s.ov = false ∧ t.ov = true) ∨ e = .reset) ∧
    (e = .take → s.ov = true → t.ov = false ∧ t.res = s.res) ∧
    (e = .reset → t.res.pack = 0#144)) ∧
  (∀ (hasRaw : Bool) (r : Res), Emitted hasRaw r → r.pack.extractLsb' 1 4 ≠ 0#4) ∧
  Res.zero.pack = 0#144

/-- A MalformedFrame is raised by a ByteIn with eos at CNT < 7 and by nothing else: whenever an event makes OV
rise with a Malformed result, that is the event, and LEN is CNT + 1 (60_exceptions.md R200). -/
def Obligations.OnlyARunEndRaisesMalformed : Prop :=
  ∀ (hasRaw : Bool) (s t : State) (e : Event) (rest : List Stimulus),
    s.inputs = .event e :: rest → stepWith hasRaw s = .next t →
    s.ov = false → t.ov = true → t.res.status = true →
    ∃ d, e = .byteIn d true ∧ s.cnt ≠ 7#3 ∧ t.res.len.toNat = s.cnt.toNat + 1 ∧ t.fmt = s.fmt ∧ t.cnt = 0#3

/-! ## Clock edges -/

/-- R240: at an edge with rst only Reset occurs; otherwise the edge is Take if out_valid and out_ready, then
ByteIn if in_valid and in_ready, then CfgWrite if cfg_we, each as its own event on the state the previous one
left; in_ready and cfg_rdata are those of the state before the edge. The premise is the host's duty of R66,
which the model reads as asking nothing at an edge with rst (its own choice, notes/assumptions/6.md); the states
compared may differ in the model's own record of a byte held back. -/
def Obligations.ClockEdgeIsTakeThenByteThenWrite : Prop :=
  ∀ (hasRaw : Bool) (p : Pins) (s : State) (rest : List Stimulus),
    s.inputs = .edge p :: rest → keepsHeldByte p s →
    (inReady p s = (!s.ov || p.outReady) ∧ cfgRdata hasRaw p s = s.cfgByte hasRaw p.cfgAddr) ∧
    (p.rst = true → stepWith hasRaw s = stepWith hasRaw { s with inputs := .event .reset :: rest }) ∧
    (p.rst = false →
      let es : List Event :=
        (if s.ov = true ∧ p.outReady = true then [.take] else []) ++
        (if p.inValid = true ∧ (s.ov = false ∨ p.outReady = true) then [.byteIn p.inData p.inEos] else []) ++
        (if p.cfgWe = true then [.cfgWrite p.cfgAddr p.cfgWdata] else [])
      ∃ t u : State, stepWith hasRaw s = .next t ∧
        runWith hasRaw es.length { s with inputs := es.map .event ++ rest } = .next u ∧
        t = { u with held := t.held })

/-- A Take and a byte at one edge: the result is handed over first, and the byte is then the first byte of a
frame, so a Take never meets a completing byte (R24, R240; 90_conflicts.md C8). -/
def Obligations.TakeNeverMeetsACompletingByte : Prop :=
  ∀ (hasRaw : Bool) (p : Pins) (s : State) (rest : List Stimulus),
    s.inputs = .edge p :: rest → keepsHeldByte p s → s.Inv hasRaw →
    p.rst = false → s.ov = true → p.outReady = true → p.inValid = true →
    ∃ t : State, stepWith hasRaw s = .next t ∧ t.taken = s.taken ++ [s.res] ∧
      (p.inEos = false → t.ov = false ∧ t.cnt = 1#3 ∧ t.fb[0] = p.inData ∧ t.res = s.res) ∧
      (p.inEos = true → t.ov = true ∧ t.cnt = 0#3 ∧ t.res = malformedResult 1#4)

/-- A write of CTRL at the edge that completes a frame comes after the decode: the frame is decoded under the
old FMT, and the new one stands after the edge (R240, R241). -/
def Obligations.SameEdgeWriteComesAfterTheDecode : Prop :=
  ∀ (p : Pins) (s : State) (rest : List Stimulus),
    s.inputs = .edge p :: rest → keepsHeldByte p s → s.ov = false → s.cnt = 7#3 →
    p.rst = false → p.inValid = true → p.cfgWe = true → p.cfgAddr = 0#2 →
    ∃ t : State, stepWith true s = .next t ∧ t.ov = true ∧ t.cnt = 0#3 ∧ t.fmt = p.cfgWdata.getLsbD 0 ∧
      t.res = decodeFrame s.fmt #v[s.fb[0], s.fb[1], s.fb[2], s.fb[3], s.fb[4], s.fb[5], s.fb[6], p.inData]

/-- With a result pending and out_ready low, in_ready is low: the byte is not accepted, the block's state is
unchanged, and the host must keep the byte, a change of which at an edge without rst the model refuses (R52,
R66; 93_implementation_defined.md I14; that rst is left out is the model's choice, notes/assumptions/6.md). -/
def Obligations.ByteIsHeldWhileAResultIsPending : Prop :=
  (∀ (hasRaw : Bool) (p : Pins) (s : State) (rest : List Stimulus),
    s.inputs = .edge p :: rest → keepsHeldByte p s → s.ov = true →
    p.rst = false → p.outReady = false → p.inValid = true → p.cfgWe = false →
    stepWith hasRaw s = .next { s with inputs := rest, held := some (p.inData, p.inEos) }) ∧
  (∀ (hasRaw : Bool) (p : Pins) (s : State) (rest : List Stimulus) (d : Byte) (eos : Bool),
    s.inputs = .edge p :: rest → s.held = some (d, eos) → p.rst = false → p.inValid = true →
    (p.inData ≠ d ∨ p.inEos ≠ eos) → stepWith hasRaw s = .refused .heldByteChanged)

/-! ## Results as the host reads them -/

/-- R117: the field list of every decoded result: the five base entries, then the kind's. -/
def Obligations.FieldListOfEveryKind : Prop :=
  (∀ f : Frame,
    let ts : List Byte := [f[4], f[5], f[6], f[7]]
    let t : Word := f[4] ++ f[5] ++ f[6] ++ f[7]
    let base := fun v : Option FieldValue =>
      ([⟨"command", [f[0]], v⟩, ⟨"byte1", [f[1]], none⟩, ⟨"byte2", [f[2]], none⟩, ⟨"byte3", [f[3]], none⟩,
        ⟨"timestamp", ts, none⟩] : List FieldEntry)
    fieldList (decodeFrame false f) = some
      (if f[0] = 0x01#8 then
        base (some (.kind .protocolVersion)) ++
          [⟨"version_major", [f[1]], some (.byte f[1])⟩, ⟨"version_minor", [f[2]], some (.byte f[2])⟩]
      else if f[0] = 0x65#8 then
        base (some (.kind .joypad)) ++
          [⟨"button_number", [f[1]], some (.byte (f[1] &&& 0x04#8))⟩,
           ⟨"button_state", [f[1]], some (.label (if f[1].getLsbD 2 then .pushed else .released))⟩]
      else if f[0] = 0x68#8 then
        base (some (.kind .sendByteMaster)) ++
          [⟨"byte_value", [f[1]], some (.byte f[1])⟩, ⟨"control", [f[2]], some (.byte f[2])⟩,
           ⟨"speed", [f[2]], some (.label (if f[2].getLsbD 1 then .highSpeed else .doubleSpeed))⟩,
           ⟨"transfer_timestamp", ts, some (.word t)⟩]
      else if f[0] = 0x69#8 then
        base (some (.kind .sendByteSlave)) ++
          [⟨"byte_value", [f[1]], some (.byte f[1])⟩, ⟨"control", [f[2]], some (.byte f[2])⟩]
      else if f[0] = 0x6A#8 then
        base (some (.kind .timestamp)) ++
          (if f[1] = 0#8 then
            [⟨"transfer_mode", [f[1]], some (.label .synchronization)⟩,
             ⟨"framecount", [f[2], f[3]], some (.half (f[2] ++ f[3]))⟩, ⟨"sync_timestamp", ts, some (.word t)⟩]
          else
            [⟨"transfer_mode", [f[1]], some (.label .activeTransferResponse)⟩,
             ⟨"framecount", [f[2], f[3]], some (.half (f[2] ++ f[3]))⟩])
      else if f[0] = 0x6C#8 then
        base (some (.kind .status)) ++
          [⟨"emulator_state", [f[1]], some (.label (if f[1].getLsbD 0 then .paused else .running))⟩]
      else base (some (.kind .unknown)))) ∧
  (∀ f : Frame, fieldList (decodeFrame true f) = some
    [⟨"command", [f[0]], none⟩, ⟨"byte1", [f[1]], none⟩, ⟨"byte2", [f[2]], none⟩, ⟨"byte3", [f[3]], none⟩,
     ⟨"timestamp", [f[4], f[5], f[6], f[7]], none⟩]) ∧
  (∀ len : BitVec 4, fieldList (malformedResult len) = none)

/-- R119: the summary items of every kind, in order. -/
def Obligations.SummaryOfEveryKind : Prop :=
  (∀ f : Frame,
    let t : Word := f[4] ++ f[5] ++ f[6] ++ f[7]
    summary (decodeFrame false f) = some
      (if f[0] = 0x01#8 then [.version f[1] f[2]]
      else if f[0] = 0x65#8 then
        [.button (f[1] &&& 0x04#8), .state (if f[1].getLsbD 2 then .pushed else .released)]
      else if f[0] = 0x68#8 then
        [.value f[1], .speed (if f[2].getLsbD 1 then .highSpeed else .doubleSpeed), .timestamp t]
      else if f[0] = 0x69#8 then [.value f[1], .control f[2]]
      else if f[0] = 0x6A#8 then
        (if f[1] = 0#8 then [.mode .synchronization, .framecount (f[2] ++ f[3]), .timestamp t]
        else [.mode .activeTransferResponse, .framecount (f[2] ++ f[3])])
      else if f[0] = 0x6C#8 then [.state (if f[1].getLsbD 0 then .paused else .running)]
      else [.unknownId f[0]])) ∧
  (∀ f : Frame, summary (decodeFrame true f) = some [])

/-- R122: a Malformed result has no field list and no summary; only Render gives it a text. -/
def Obligations.MalformedHasOnlyARendering : Prop :=
  ∀ len : BitVec 4, fieldList (malformedResult len) = none ∧ summary (malformedResult len) = none ∧
    render (malformedResult len) = some ("Malformed frame (" ++ Nat.repr len.toNat ++ " bytes)")

/-- R121: the reference line of every result, in terms of the frame's bytes; dec is the decimal writing of
Lean's own library, Nat.repr. -/
def Obligations.RenderOfEveryKind : Prop :=
  (∀ f : Frame,
    let t : Word := f[4] ++ f[5] ++ f[6] ++ f[7]
    let n : Half := f[2] ++ f[3]
    render (decodeFrame false f) = some
      (if f[0] = 0x01#8 then "Protocol version " ++ Nat.repr f[1].toNat ++ "." ++ Nat.repr f[2].toNat
      else if f[0] = 0x65#8 then
        "Joypad: button " ++ Nat.repr (f[1] &&& 0x04#8).toNat ++ " " ++
          (if f[1].getLsbD 2 then "pushed" else "released")
      else if f[0] = 0x68#8 then
        "Send byte (master): value " ++ Nat.repr f[1].toNat ++ ", " ++
          (if f[2].getLsbD 1 then "high speed" else "double speed") ++ ", timestamp " ++ Nat.repr t.toNat
      else if f[0] = 0x69#8 then
        "Send byte (slave): value " ++ Nat.repr f[1].toNat ++ ", control " ++ Nat.repr f[2].toNat
      else if f[0] = 0x6A#8 then
        (if f[1] = 0#8 then
          "Timestamp: synchronization, framecount " ++ Nat.repr n.toNat ++ ", timestamp " ++ Nat.repr t.toNat
        else "Timestamp: active transfer response, framecount " ++ Nat.repr n.toNat)
      else if f[0] = 0x6C#8 then
        (if f[1].getLsbD 0 then "Status: Emulator is paused" else "Status: Emulator is running")
      else "Unknown command " ++ Nat.repr f[0].toNat)) ∧
  (∀ f : Frame, render (decodeFrame true f) = some "") ∧
  (∀ len : BitVec 4, render (malformedResult len) =
    some ("Malformed frame (" ++ Nat.repr len.toNat ++ " bytes)"))

/-- The mnemonic forms of a frame decode to the instructions they are written for, every byte a form does not
name 00 (30_encoding.md R93); a well-formed TACK takes the response branch of a Timestamp frame (R144). -/
def Obligations.MnemonicFormsDecode : Prop :=
  (∀ maj min : Byte, decode false (FrameForm.version maj min).expand = .protocolVersion maj min 0#8 0#32) ∧
  (∀ p : Byte, decode false (FrameForm.joypad p).expand = .joypad p 0#8 0#8 0#32) ∧
  (∀ (v c : Byte) (t : Word), decode false (FrameForm.sbm v c t).expand = .sendByteMaster v c 0#8 t) ∧
  (∀ v c : Byte, decode false (FrameForm.sbs v c).expand = .sendByteSlave v c 0#8 0#32) ∧
  (∀ (n : Half) (t : Word), ∃ hi lo : Byte, hi ++ lo = n ∧
    decode false (FrameForm.tsync n t).expand = .timestamp 0#8 hi lo t) ∧
  (∀ (r : Byte) (n : Half), (FrameForm.tack r n).wellFormed = true → ∃ hi lo : Byte, hi ++ lo = n ∧
    decode false (FrameForm.tack r n).expand = .timestamp r hi lo 0#32 ∧
    (decodeFrame false (FrameForm.tack r n).expand).label = .activeTransferResponse) ∧
  (∀ b : Byte, decode false (FrameForm.status b).expand = .status b 0#8 0#8 0#32)

/-! ## Runs and invariants -/

/-- The invariant holds right after reset (R230). -/
def Obligations.InvariantHoldsAtReset : Prop := ∀ hasRaw : Bool, State.reset.Inv hasRaw

/-- Every step keeps the invariant, from every state that meets it, with and without the raw layout: a pending
result stands at a frame boundary (R24), FMT stays 0 where it is hardwired (R27), RES and every result the host
was handed is one that Decode or MalformedFrame produces (R30, R200), a byte is held back only while a result
is pending (R52). -/
def Obligations.EveryStepKeepsTheInvariant : Prop :=
  (∀ (hasRaw : Bool) (s t : State), s.Inv hasRaw → stepWith hasRaw s = .next t → t.Inv hasRaw) ∧
  (∀ s t : State, s.Inv Config.hasRawMode → step s = .next t → t.Inv Config.hasRawMode)

/-- A stale byte never leaks: two states that differ at most in FB[i] for i ≥ CNT take the same steps and differ
at most so again, so their results and everything the host reads agree (10_state.md R23). -/
def Obligations.StaleBytesNeverLeak : Prop :=
  ∀ (hasRaw : Bool) (s t s' : State), SameButStale s t → stepWith hasRaw s = .next s' →
    ∃ t', stepWith hasRaw t = .next t' ∧ SameButStale s' t' ∧ s'.res = t'.res ∧ s'.taken = t'.taken ∧
      s'.reads = t'.reads

/-- A frame's result depends on its 8 bytes and the layout alone: from every state at a frame boundary with
nothing pending, whatever came before, its 8 bytes give Decode of those bytes (R13, R63, R115). -/
def Obligations.AFrameDecodesWhateverCameBefore : Prop :=
  ∀ (hasRaw : Bool) (s : State) (f : Frame) (eos : Bool) (rest : List Stimulus),
    s.cnt = 0#3 → s.ov = false → s.inputs = (frameEvents f eos).map .event ++ rest →
    ∃ t : State, runWith hasRaw 8 s = .next t ∧ t.res = decodeFrame (s.fmt && hasRaw) f ∧ t.ov = true ∧
      t.cnt = 0#3 ∧ t.fmt = s.fmt ∧ t.inputs = rest ∧ t.taken = s.taken ∧ t.reads = s.reads

/-- No result is lost or overwritten: at every step without a reset from a state with a pending result, either
it still stands, not taken, or the host has been handed it (20_memory.md R63 (b); 60_exceptions.md R203). -/
def Obligations.NoPendingResultIsLost : Prop :=
  ∀ (hasRaw : Bool) (s t : State), s.ov = true → stepWith hasRaw s = .next t →
    (∀ rest, s.inputs ≠ .event .reset :: rest) → (∀ p rest, s.inputs = .edge p :: rest → p.rst = false) →
    (t.ov = true ∧ t.res = s.res ∧ t.taken = s.taken) ∨ t.taken = s.taken ++ [s.res]

/-- R244: while OV = 1 ByteIn has no step, and if the host neither takes the result nor resets the block, for
however many steps and whatever else it does, the block accepts no byte and keeps the result. -/
def Obligations.AResultNotTakenHoldsTheInput : Prop :=
  (∀ (hasRaw : Bool) (s : State) (d : Byte) (eos : Bool), s.ov = true →
    eventStep hasRaw (.byteIn d eos) s = none) ∧
  (∀ (hasRaw : Bool) (n : Nat) (s t : State), s.ov = true → (∀ x ∈ s.inputs, x.quiet = true) →
    runWith hasRaw n s = .next t →
    t.ov = true ∧ t.res = s.res ∧ t.cnt = s.cnt ∧ t.fb = s.fb ∧ t.taken = s.taken)

/-- R177: a run of L bytes, from a frame boundary with nothing pending, with eos on its last byte only, a Take
after every emit, and any writes of the configuration port before any byte, hands the host Decode of each whole
frame under CTRL.FMT at its completing byte, then Malformed(L mod 8) if L mod 8 ≠ 0, and nothing else. -/
def Obligations.ARunGivesItsFramesThenItsRemainder : Prop :=
  ∀ (hasRaw : Bool) (s : State) (xs : List RunByte) (rest : List Stimulus),
    s.cnt = 0#3 → s.ov = false → s.inputs = (runEvents 0 xs).map .event ++ rest →
    ∃ t : State, runWith hasRaw (runEvents 0 xs).length s = .next t ∧
      t.taken = s.taken ++ runResults hasRaw s.fmt xs ∧ t.cnt = 0#3 ∧ t.ov = false ∧ t.inputs = rest
end

