-- ==== Sys2Proof/Laws/Encoding.lean ====
section
/-! SUPPORT. Bytes and words of a frame; what the decoder answers, layout by layout. -/

namespace Sys2Proof

/-- A 32-bit word is the big-endian assembly of its four bytes (R56). -/
theorem be32_wordBytes (t : Word) :
    be32 (t.extractLsb' 24 8) (t.extractLsb' 16 8) (t.extractLsb' 8 8) (t.extractLsb' 0 8) = t := by
  unfold be32
  rw [BitVec.extractLsb'_append_extractLsb'_eq_extractLsb' (by omega),
    BitVec.extractLsb'_append_extractLsb'_eq_extractLsb' (by omega),
    BitVec.extractLsb'_append_extractLsb'_eq_extractLsb' (by omega)]
  exact BitVec.extractLsb'_eq_self

/-- The bytes of a big-endian assembly (R56). -/
theorem wordBytes_be32 (a b c d : Byte) : wordBytes (be32 a b c d) = [a, b, c, d] := by
  unfold wordBytes be32
  simp only [List.cons.injEq, and_true]
  refine ⟨?_, ?_, ?_, ?_⟩ <;>
  · apply BitVec.eq_of_getLsbD_eq
    intro i hi
    simp only [BitVec.getLsbD_extractLsb', BitVec.getLsbD_append, hi, decide_true, Bool.true_and]
    repeat' split
    all_goals first | omega | (congr 1; omega)

@[simp] theorem decode_raw (f : Frame) :
    decode true f = .raw f[0] f[1] f[2] f[3] (be32 f[4] f[5] f[6] f[7]) := rfl

/-- An identifier outside the opcode map decodes to Unknown (R87). -/
theorem decode_unknown (f : Frame) (h : f[0] ∉ knownIds) :
    decode false f = .unknown f[0] f[1] f[2] f[3] (be32 f[4] f[5] f[6] f[7]) := by
  simp only [knownIds, List.mem_cons, List.not_mem_nil, or_false, not_or] at h
  simp [decode, h]

/-- The decoder on a buffer of 8 bytes is `decode` (R111). -/
theorem decodeBytes_frame (fmt : Bool) (f : Frame) : decodeBytes fmt f.toList = .ok (decode fmt f) := by
  unfold decodeBytes
  rw [dif_pos (by simp)]
  rfl

/-- A buffer of any other length is refused with its length (R111). -/
theorem decodeBytes_short (fmt : Bool) (buf : List Byte) (h : buf.length ≠ 8) :
    decodeBytes fmt buf = .error (.malformedFrame buf.length) := by
  simp [decodeBytes, h]

end Sys2Proof
end

