-- ==== Sys2Proof/Laws/State.lean ====
section
/-! SUPPORT. What each operation leaves in each field of the state: one lemma per field per update. -/

namespace Sys2Proof.Machine

@[simp] theorem State.writeFB_cnt (s : State) (d : Byte) : (s.writeFB d).cnt = s.cnt := rfl
@[simp] theorem State.writeFB_fb (s : State) (d : Byte) :
    (s.writeFB d).fb = s.fb.setIfInBounds s.cnt.toNat d := rfl
@[simp] theorem State.writeFB_ov (s : State) (d : Byte) : (s.writeFB d).ov = s.ov := rfl
@[simp] theorem State.writeFB_res (s : State) (d : Byte) : (s.writeFB d).res = s.res := rfl
@[simp] theorem State.writeFB_fmt (s : State) (d : Byte) : (s.writeFB d).fmt = s.fmt := rfl
@[simp] theorem State.writeFB_inputs (s : State) (d : Byte) : (s.writeFB d).inputs = s.inputs := rfl
@[simp] theorem State.writeFB_held (s : State) (d : Byte) : (s.writeFB d).held = s.held := rfl
@[simp] theorem State.writeFB_taken (s : State) (d : Byte) : (s.writeFB d).taken = s.taken := rfl
@[simp] theorem State.writeFB_reads (s : State) (d : Byte) : (s.writeFB d).reads = s.reads := rfl

@[simp] theorem State.advance_cnt (s : State) : (s.advance).cnt = s.cnt + 1#3 := rfl
@[simp] theorem State.advance_fb (s : State) : (s.advance).fb = s.fb := rfl
@[simp] theorem State.advance_ov (s : State) : (s.advance).ov = s.ov := rfl
@[simp] theorem State.advance_res (s : State) : (s.advance).res = s.res := rfl
@[simp] theorem State.advance_fmt (s : State) : (s.advance).fmt = s.fmt := rfl
@[simp] theorem State.advance_inputs (s : State) : (s.advance).inputs = s.inputs := rfl
@[simp] theorem State.advance_held (s : State) : (s.advance).held = s.held := rfl
@[simp] theorem State.advance_taken (s : State) : (s.advance).taken = s.taken := rfl
@[simp] theorem State.advance_reads (s : State) : (s.advance).reads = s.reads := rfl

@[simp] theorem State.closeFrame_cnt (s : State) : (s.closeFrame).cnt = 0#3 := rfl
@[simp] theorem State.closeFrame_fb (s : State) : (s.closeFrame).fb = s.fb := rfl
@[simp] theorem State.closeFrame_ov (s : State) : (s.closeFrame).ov = s.ov := rfl
@[simp] theorem State.closeFrame_res (s : State) : (s.closeFrame).res = s.res := rfl
@[simp] theorem State.closeFrame_fmt (s : State) : (s.closeFrame).fmt = s.fmt := rfl
@[simp] theorem State.closeFrame_inputs (s : State) : (s.closeFrame).inputs = s.inputs := rfl
@[simp] theorem State.closeFrame_held (s : State) : (s.closeFrame).held = s.held := rfl
@[simp] theorem State.closeFrame_taken (s : State) : (s.closeFrame).taken = s.taken := rfl
@[simp] theorem State.closeFrame_reads (s : State) : (s.closeFrame).reads = s.reads := rfl

@[simp] theorem State.emit_cnt (s : State) (r : Res) : (s.emit r).cnt = s.cnt := rfl
@[simp] theorem State.emit_fb (s : State) (r : Res) : (s.emit r).fb = s.fb := rfl
@[simp] theorem State.emit_ov (s : State) (r : Res) : (s.emit r).ov = true := rfl
@[simp] theorem State.emit_res (s : State) (r : Res) : (s.emit r).res = r := rfl
@[simp] theorem State.emit_fmt (s : State) (r : Res) : (s.emit r).fmt = s.fmt := rfl
@[simp] theorem State.emit_inputs (s : State) (r : Res) : (s.emit r).inputs = s.inputs := rfl
@[simp] theorem State.emit_held (s : State) (r : Res) : (s.emit r).held = s.held := rfl
@[simp] theorem State.emit_taken (s : State) (r : Res) : (s.emit r).taken = s.taken := rfl
@[simp] theorem State.emit_reads (s : State) (r : Res) : (s.emit r).reads = s.reads := rfl

@[simp] theorem State.raiseMalformed_cnt (s : State) (len : BitVec 4) :
    (s.raiseMalformed len).cnt = s.cnt := rfl
@[simp] theorem State.raiseMalformed_fb (s : State) (len : BitVec 4) : (s.raiseMalformed len).fb = s.fb := rfl
@[simp] theorem State.raiseMalformed_ov (s : State) (len : BitVec 4) : (s.raiseMalformed len).ov = true := rfl
@[simp] theorem State.raiseMalformed_res (s : State) (len : BitVec 4) :
    (s.raiseMalformed len).res = malformedResult len := rfl
@[simp] theorem State.raiseMalformed_fmt (s : State) (len : BitVec 4) :
    (s.raiseMalformed len).fmt = s.fmt := rfl
@[simp] theorem State.raiseMalformed_inputs (s : State) (len : BitVec 4) :
    (s.raiseMalformed len).inputs = s.inputs := rfl
@[simp] theorem State.raiseMalformed_held (s : State) (len : BitVec 4) :
    (s.raiseMalformed len).held = s.held := rfl
@[simp] theorem State.raiseMalformed_taken (s : State) (len : BitVec 4) :
    (s.raiseMalformed len).taken = s.taken := rfl
@[simp] theorem State.raiseMalformed_reads (s : State) (len : BitVec 4) :
    (s.raiseMalformed len).reads = s.reads := rfl

@[simp] theorem State.resetBlock_cnt (s : State) : (s.resetBlock).cnt = 0#3 := rfl
@[simp] theorem State.resetBlock_fb (s : State) : (s.resetBlock).fb = Vector.replicate 7 0#8 := rfl
@[simp] theorem State.resetBlock_ov (s : State) : (s.resetBlock).ov = false := rfl
@[simp] theorem State.resetBlock_res (s : State) : (s.resetBlock).res = Res.zero := rfl
@[simp] theorem State.resetBlock_fmt (s : State) : (s.resetBlock).fmt = false := rfl
@[simp] theorem State.resetBlock_inputs (s : State) : (s.resetBlock).inputs = s.inputs := rfl
@[simp] theorem State.resetBlock_held (s : State) : (s.resetBlock).held = none := rfl
@[simp] theorem State.resetBlock_taken (s : State) : (s.resetBlock).taken = s.taken := rfl
@[simp] theorem State.resetBlock_reads (s : State) : (s.resetBlock).reads = s.reads := rfl

@[simp] theorem takeResult_cnt (s : State) : (takeResult s).cnt = s.cnt := rfl
@[simp] theorem takeResult_fb (s : State) : (takeResult s).fb = s.fb := rfl
@[simp] theorem takeResult_ov (s : State) : (takeResult s).ov = false := rfl
@[simp] theorem takeResult_res (s : State) : (takeResult s).res = s.res := rfl
@[simp] theorem takeResult_fmt (s : State) : (takeResult s).fmt = s.fmt := rfl
@[simp] theorem takeResult_inputs (s : State) : (takeResult s).inputs = s.inputs := rfl
@[simp] theorem takeResult_held (s : State) : (takeResult s).held = s.held := rfl
@[simp] theorem takeResult_taken (s : State) : (takeResult s).taken = s.taken ++ [s.res] := rfl
@[simp] theorem takeResult_reads (s : State) : (takeResult s).reads = s.reads := rfl

@[simp] theorem cfgReadOut_cnt (hasRaw : Bool) (a : CfgAddr) (s : State) :
    (cfgReadOut hasRaw a s).cnt = s.cnt := rfl
@[simp] theorem cfgReadOut_fb (hasRaw : Bool) (a : CfgAddr) (s : State) :
    (cfgReadOut hasRaw a s).fb = s.fb := rfl
@[simp] theorem cfgReadOut_ov (hasRaw : Bool) (a : CfgAddr) (s : State) :
    (cfgReadOut hasRaw a s).ov = s.ov := rfl
@[simp] theorem cfgReadOut_res (hasRaw : Bool) (a : CfgAddr) (s : State) :
    (cfgReadOut hasRaw a s).res = s.res := rfl
@[simp] theorem cfgReadOut_fmt (hasRaw : Bool) (a : CfgAddr) (s : State) :
    (cfgReadOut hasRaw a s).fmt = s.fmt := rfl
@[simp] theorem cfgReadOut_inputs (hasRaw : Bool) (a : CfgAddr) (s : State) :
    (cfgReadOut hasRaw a s).inputs = s.inputs := rfl
@[simp] theorem cfgReadOut_held (hasRaw : Bool) (a : CfgAddr) (s : State) :
    (cfgReadOut hasRaw a s).held = s.held := rfl
@[simp] theorem cfgReadOut_taken (hasRaw : Bool) (a : CfgAddr) (s : State) :
    (cfgReadOut hasRaw a s).taken = s.taken := rfl
@[simp] theorem cfgReadOut_reads (hasRaw : Bool) (a : CfgAddr) (s : State) :
    (cfgReadOut hasRaw a s).reads = s.reads ++ [s.cfgByte hasRaw a] := rfl

@[simp] theorem storeByte_cnt (d : Byte) (s : State) : (storeByte d s).cnt = s.cnt + 1#3 := rfl
@[simp] theorem storeByte_fb (d : Byte) (s : State) :
    (storeByte d s).fb = s.fb.setIfInBounds s.cnt.toNat d := rfl
@[simp] theorem storeByte_ov (d : Byte) (s : State) : (storeByte d s).ov = s.ov := rfl
@[simp] theorem storeByte_res (d : Byte) (s : State) : (storeByte d s).res = s.res := rfl
@[simp] theorem storeByte_fmt (d : Byte) (s : State) : (storeByte d s).fmt = s.fmt := rfl
@[simp] theorem storeByte_inputs (d : Byte) (s : State) : (storeByte d s).inputs = s.inputs := rfl
@[simp] theorem storeByte_held (d : Byte) (s : State) : (storeByte d s).held = s.held := rfl
@[simp] theorem storeByte_taken (d : Byte) (s : State) : (storeByte d s).taken = s.taken := rfl
@[simp] theorem storeByte_reads (d : Byte) (s : State) : (storeByte d s).reads = s.reads := rfl

@[simp] theorem endRun_cnt (d : Byte) (s : State) : (endRun d s).cnt = 0#3 := rfl
@[simp] theorem endRun_fb (d : Byte) (s : State) : (endRun d s).fb = s.fb.setIfInBounds s.cnt.toNat d := rfl
@[simp] theorem endRun_ov (d : Byte) (s : State) : (endRun d s).ov = true := rfl
@[simp] theorem endRun_res (d : Byte) (s : State) :
    (endRun d s).res = malformedResult (malformedLen s.cnt) := rfl
@[simp] theorem endRun_fmt (d : Byte) (s : State) : (endRun d s).fmt = s.fmt := rfl
@[simp] theorem endRun_inputs (d : Byte) (s : State) : (endRun d s).inputs = s.inputs := rfl
@[simp] theorem endRun_held (d : Byte) (s : State) : (endRun d s).held = s.held := rfl
@[simp] theorem endRun_taken (d : Byte) (s : State) : (endRun d s).taken = s.taken := rfl
@[simp] theorem endRun_reads (d : Byte) (s : State) : (endRun d s).reads = s.reads := rfl

@[simp] theorem State.cfgStore_cnt (hasRaw : Bool) (s : State) (a : CfgAddr) (v : Byte) :
    (s.cfgStore hasRaw a v).cnt = s.cnt := by
  unfold State.cfgStore; split <;> rfl
@[simp] theorem State.cfgStore_fb (hasRaw : Bool) (s : State) (a : CfgAddr) (v : Byte) :
    (s.cfgStore hasRaw a v).fb = s.fb := by
  unfold State.cfgStore; split <;> rfl
@[simp] theorem State.cfgStore_ov (hasRaw : Bool) (s : State) (a : CfgAddr) (v : Byte) :
    (s.cfgStore hasRaw a v).ov = s.ov := by
  unfold State.cfgStore; split <;> rfl
@[simp] theorem State.cfgStore_res (hasRaw : Bool) (s : State) (a : CfgAddr) (v : Byte) :
    (s.cfgStore hasRaw a v).res = s.res := by
  unfold State.cfgStore; split <;> rfl
@[simp] theorem State.cfgStore_inputs (hasRaw : Bool) (s : State) (a : CfgAddr) (v : Byte) :
    (s.cfgStore hasRaw a v).inputs = s.inputs := by
  unfold State.cfgStore; split <;> rfl
@[simp] theorem State.cfgStore_held (hasRaw : Bool) (s : State) (a : CfgAddr) (v : Byte) :
    (s.cfgStore hasRaw a v).held = s.held := by
  unfold State.cfgStore; split <;> rfl
@[simp] theorem State.cfgStore_taken (hasRaw : Bool) (s : State) (a : CfgAddr) (v : Byte) :
    (s.cfgStore hasRaw a v).taken = s.taken := by
  unfold State.cfgStore; split <;> rfl
@[simp] theorem State.cfgStore_reads (hasRaw : Bool) (s : State) (a : CfgAddr) (v : Byte) :
    (s.cfgStore hasRaw a v).reads = s.reads := by
  unfold State.cfgStore; split <;> rfl
@[simp] theorem State.cfgStore_fmt (hasRaw : Bool) (s : State) (a : CfgAddr) (v : Byte) :
    (s.cfgStore hasRaw a v).fmt = if a = 0#2 && hasRaw then v.getLsbD 0 else s.fmt := by
  unfold State.cfgStore; split <;> rfl

end Sys2Proof.Machine
end

