-- ==== Sys2Proof/Laws/Ops.lean ====
section
/-! SUPPORT. What each shared operation can do, said once. -/

namespace Sys2Proof.Machine

/-- A sequence answers a next state exactly when its first operation does and the rest does from there. -/
theorem andThen_next {o : Host.Outcome State Fault Refusal} {k : State → Host.Outcome State Fault Refusal}
    {t : State} : andThen o k = .next t ↔ ∃ s, o = .next s ∧ k s = .next t := by
  cases o <;> simp [andThen]

@[simp] theorem andThen_of_next (s : State) (k : State → Host.Outcome State Fault Refusal) :
    andThen (.next s) k = k s := rfl

/-- The hardwired layout (R27). -/
@[simp] theorem State.layout_hardwired (s : State) : s.layout false = false := Bool.and_false _

@[simp] theorem State.layout_present (s : State) : s.layout true = s.fmt := Bool.and_true _

/-- STATUS is OV above CNT (R28). -/
theorem State.cfgByte_status (hasRaw : Bool) (s : State) :
    s.cfgByte hasRaw 1#2 = (BitVec.ofBool s.ov ++ s.cnt).setWidth 8 := rfl

/-- Writing a byte of the frame buffer reaches the entry at CNT and no other (R22). -/
theorem State.writeFB_get (s : State) (d : Byte) (i : Nat) (h : i < 7) :
    (s.writeFB d).fb[i] = if s.cnt.toNat = i then d else s.fb[i] := by
  simp [Vector.getElem_setIfInBounds]

/-- Every kind rule starts from the base result and leaves its raw fields alone (R112). -/
theorem resultOf_base (i : Instr) :
    (resultOf i).status = false ∧ (resultOf i).len = 8#4 ∧ (resultOf i).mode = i.layout := by
  cases i <;> exact ⟨rfl, rfl, rfl⟩

/-- A decoded result has a kind (R88). -/
theorem resultOf_kind_ne_none (i : Instr) : (resultOf i).kind ≠ .none := by cases i <;> exact Kind.noConfusion

/-- Every instruction emits its result and closes the frame (R171). -/
theorem exec_eq (i : Instr) (s : State) : exec i s = .next (s.emit (resultOf i)).closeFrame := by
  cases i <;> rfl

/-- FB[0..6] and the completing byte as the frame of R171. -/
theorem push_eq_frame (v : Vector Byte 7) (d : Byte) :
    v.push d = #v[v[0], v[1], v[2], v[3], v[4], v[5], v[6], d] := by
  ext i hi
  match i, hi with
  | 0, _ | 1, _ | 2, _ | 3, _ | 4, _ | 5, _ | 6, _ => simp
  | 7, _ => simp

/-- LEN of a Malformed result is CNT + 1 as a number, with no wrap (R172). -/
theorem malformedLen_toNat (cnt : BitVec 3) : (malformedLen cnt).toNat = cnt.toNat + 1 := by
  revert cnt
  decide

/-- CNT advances without a wrap below 7 (R21). -/
theorem cnt_advance_toNat {cnt : BitVec 3} (h : cnt ≠ 7#3) : (cnt + 1#3).toNat = cnt.toNat + 1 := by
  revert cnt
  decide

end Sys2Proof.Machine
end

