-- ==== Sys2Proof/Laws/PerInstr.lean ====
section
/-! SUPPORT. Statements about every instruction as syntax, one lemma per constructor. -/

namespace Sys2Proof.Laws

/-- The raw fields (ID, B1, B2, B3, TS) an instruction stands for (R80, R86). -/
def rawFields : Instr → Byte × Byte × Byte × Byte × Word
  | .protocolVersion b1 b2 b3 ts => (0x01#8, b1, b2, b3, ts)
  | .joypad b1 b2 b3 ts => (0x65#8, b1, b2, b3, ts)
  | .sendByteMaster b1 b2 b3 ts => (0x68#8, b1, b2, b3, ts)
  | .sendByteSlave b1 b2 b3 ts => (0x69#8, b1, b2, b3, ts)
  | .timestamp b1 b2 b3 ts => (0x6A#8, b1, b2, b3, ts)
  | .status b1 b2 b3 ts => (0x6C#8, b1, b2, b3, ts)
  | .unknown id b1 b2 b3 ts => (id, b1, b2, b3, ts)
  | .raw id b1 b2 b3 ts => (id, b1, b2, b3, ts)

/-- The frame of an instruction carries each raw field in its bytes of R80. -/
def EncodeKeepsFields.Statement (i : Instr) : Prop :=
  ((encode i)[0], (encode i)[1], (encode i)[2], (encode i)[3],
    be32 (encode i)[4] (encode i)[5] (encode i)[6] (encode i)[7]) = rawFields i

/-- The frame of any raw fields carries them. -/
theorem frameOf_fields (id b1 b2 b3 : Byte) (ts : Word) :
    ((frameOf id b1 b2 b3 ts)[0], (frameOf id b1 b2 b3 ts)[1], (frameOf id b1 b2 b3 ts)[2],
      (frameOf id b1 b2 b3 ts)[3],
      be32 (frameOf id b1 b2 b3 ts)[4] (frameOf id b1 b2 b3 ts)[5] (frameOf id b1 b2 b3 ts)[6]
        (frameOf id b1 b2 b3 ts)[7]) = (id, b1, b2, b3, ts) :=
  congrArg (fun t => (id, b1, b2, b3, t)) (be32_wordBytes ts)

theorem EncodeKeepsFields.protocolVersion (b1 b2 b3 : Byte) (ts : Word) :
    EncodeKeepsFields.Statement (.protocolVersion b1 b2 b3 ts) := frameOf_fields _ b1 b2 b3 ts

theorem EncodeKeepsFields.joypad (b1 b2 b3 : Byte) (ts : Word) :
    EncodeKeepsFields.Statement (.joypad b1 b2 b3 ts) := frameOf_fields _ b1 b2 b3 ts

theorem EncodeKeepsFields.sendByteMaster (b1 b2 b3 : Byte) (ts : Word) :
    EncodeKeepsFields.Statement (.sendByteMaster b1 b2 b3 ts) := frameOf_fields _ b1 b2 b3 ts

theorem EncodeKeepsFields.sendByteSlave (b1 b2 b3 : Byte) (ts : Word) :
    EncodeKeepsFields.Statement (.sendByteSlave b1 b2 b3 ts) := frameOf_fields _ b1 b2 b3 ts

theorem EncodeKeepsFields.timestamp (b1 b2 b3 : Byte) (ts : Word) :
    EncodeKeepsFields.Statement (.timestamp b1 b2 b3 ts) := frameOf_fields _ b1 b2 b3 ts

theorem EncodeKeepsFields.status (b1 b2 b3 : Byte) (ts : Word) :
    EncodeKeepsFields.Statement (.status b1 b2 b3 ts) := frameOf_fields _ b1 b2 b3 ts

theorem EncodeKeepsFields.unknown (id b1 b2 b3 : Byte) (ts : Word) :
    EncodeKeepsFields.Statement (.unknown id b1 b2 b3 ts) := frameOf_fields id b1 b2 b3 ts

theorem EncodeKeepsFields.raw (id b1 b2 b3 : Byte) (ts : Word) :
    EncodeKeepsFields.Statement (.raw id b1 b2 b3 ts) := frameOf_fields id b1 b2 b3 ts

end Sys2Proof.Laws
end

