-- ==== Sys2Proof/Laws/Result.lean ====
section
/-! SUPPORT. What the packed result shows at each bit position (R30), and the codes. -/

namespace Sys2Proof.Machine

/-- The low part of an append, at an offset inside it. -/
theorem extractLsb'_append_low {v w : Nat} (x : BitVec v) (y : BitVec w) (start len : Nat)
    (h : start + len ≤ w) : (x ++ y).extractLsb' start len = y.extractLsb' start len := by
  apply BitVec.eq_of_getLsbD_eq
  intro i hi
  simp only [BitVec.getLsbD_extractLsb', BitVec.getLsbD_append]
  rw [if_pos (by omega)]

/-- The high part of an append, at an offset at or above the low part's width. -/
theorem extractLsb'_append_high {v w : Nat} (x : BitVec v) (y : BitVec w) (start len : Nat)
    (h : w ≤ start) : (x ++ y).extractLsb' start len = x.extractLsb' (start - w) len := by
  apply BitVec.eq_of_getLsbD_eq
  intro i hi
  simp only [BitVec.getLsbD_extractLsb', BitVec.getLsbD_append]
  rw [if_neg (by omega)]
  congr 2
  omega

@[simp] theorem Kind.ofCode_code (k : Kind) : Kind.ofCode k.code = some k := by cases k <;> rfl

@[simp] theorem Label.ofCode_code (l : Label) : Label.ofCode l.code = some l := by cases l <;> rfl

theorem Kind.code_le (k : Kind) : k.code.toNat ≤ 8 := by cases k <;> decide

theorem Label.code_le (l : Label) : l.code.toNat ≤ 8 := by cases l <;> decide

/-- The bus shows every field of RES at its bits of R30. -/
theorem Res.pack_shows (r : Res) :
    BusShows r.pack (BitVec.ofBool r.status) r.len (BitVec.ofBool r.mode) r.kind.code r.label.code
      (BitVec.ofBool r.flag) r.id r.b1 r.b2 r.b3 r.ts r.va r.vb r.vw r.vt := by
  constructor <;> unfold Res.pack <;>
    repeat (first
      | rw [extractLsb'_append_low (h := by omega)]
      | rw [extractLsb'_append_high (h := by omega)])
  all_goals exact BitVec.extractLsb'_eq_self

end Sys2Proof.Machine
end

