-- ==== Sys2Proof/Laws/Step.lean ====
section
/-! SUPPORT. What one event and one step can do, said once. -/

namespace Sys2Proof.Machine

/-- The next state of an enabled event, case by case (R170 to R176, R230). -/
theorem applyEvent_cases {hasRaw : Bool} {e : Event} {s t : State} (h : applyEvent hasRaw e s = .next t) :
    (∃ d eos, e = .byteIn d eos ∧ s.cnt = 7#3 ∧
      t = (s.emit (decodeFrame (s.layout hasRaw) (s.fb.push d))).closeFrame) ∨
    (∃ d, e = .byteIn d true ∧ s.cnt ≠ 7#3 ∧ t = endRun d s) ∨
    (∃ d, e = .byteIn d false ∧ s.cnt ≠ 7#3 ∧ t = storeByte d s) ∨
    (e = .take ∧ t = takeResult s) ∨
    (∃ a v, e = .cfgWrite a v ∧ t = s.cfgStore hasRaw a v) ∨
    (∃ a, e = .cfgRead a ∧ t = cfgReadOut hasRaw a s) ∨
    (e = .reset ∧ t = s.resetBlock) := by
  cases e with
  | byteIn d eos =>
    simp only [applyEvent, byteIn, completeFrame] at h
    split at h
    · rw [exec_eq] at h
      exact .inl ⟨d, eos, rfl, ‹_›, by simpa [decodeFrame] using h.symm⟩
    · split at h
      · exact .inr (.inl ⟨d, by simp_all, ‹_›, by simpa using h.symm⟩)
      · exact .inr (.inr (.inl ⟨d, by simp_all, ‹_›, by simpa using h.symm⟩))
  | take => exact .inr (.inr (.inr (.inl ⟨rfl, by simpa [applyEvent] using h.symm⟩)))
  | cfgWrite a v =>
    exact .inr (.inr (.inr (.inr (.inl ⟨a, v, rfl, by simpa [applyEvent] using h.symm⟩))))
  | cfgRead a =>
    exact .inr (.inr (.inr (.inr (.inr (.inl ⟨a, rfl, by simpa [applyEvent] using h.symm⟩)))))
  | reset => exact .inr (.inr (.inr (.inr (.inr (.inr ⟨rfl, by simpa [applyEvent] using h.symm⟩)))))

/-- An enabled event has a next state (R176: every enabled event has exactly one successor). -/
theorem applyEvent_total (hasRaw : Bool) (e : Event) (s : State) : ∃ t, applyEvent hasRaw e s = .next t := by
  cases e with
  | byteIn d eos =>
    simp only [applyEvent, byteIn, completeFrame, exec_eq]
    split
    · exact ⟨_, rfl⟩
    · split <;> exact ⟨_, rfl⟩
  | take => exact ⟨_, rfl⟩
  | cfgWrite a v => exact ⟨_, rfl⟩
  | cfgRead a => exact ⟨_, rfl⟩
  | reset => exact ⟨_, rfl⟩

/-- Events in order always have a next state. -/
theorem applyEvents_total (hasRaw : Bool) (es : List Event) (s : State) :
    ∃ t, applyEvents hasRaw es s = .next t := by
  induction es generalizing s with
  | nil => exact ⟨s, rfl⟩
  | cons e es ih =>
    obtain ⟨u, hu⟩ := applyEvent_total hasRaw e s
    simpa [applyEvents, hu] using ih u

/-- The word `withFetchWord` places is the frame the next step completes and runs. -/
theorem step_withFetchWord (s : State) (nbits w : Nat) :
    step (s.withFetchWord nbits w) =
      exec (decode (s.layout Config.hasRawMode) (frameOfWord (BitVec.ofNat 64 (w % 2 ^ nbits))))
        { s.withFetchWord nbits w with inputs := s.inputs, held := none } := by
  generalize hf : frameOfWord (BitVec.ofNat 64 (w % 2 ^ nbits)) = f
  have hpush : (#v[f[0], f[1], f[2], f[3], f[4], f[5], f[6]] : Vector Byte 7).push f[7] = f := by
    ext i hi
    match i, hi with
    | 0, _ | 1, _ | 2, _ | 3, _ | 4, _ | 5, _ | 6, _ | 7, _ => rfl
  have h : step (s.withFetchWord nbits w) =
      exec (decode (s.layout Config.hasRawMode)
          ((#v[f[0], f[1], f[2], f[3], f[4], f[5], f[6]] : Vector Byte 7).push f[7]))
        { s.withFetchWord nbits w with inputs := s.inputs, held := none } := by subst hf; rfl
  rw [h, hpush]

/-- The next state of a step: idle (R214), held (R176), an enabled event, or a clock edge (R240). -/
theorem stepWith_cases {hasRaw : Bool} {s t : State} (h : stepWith hasRaw s = .next t) :
    (s.inputs = [] ∧ t = s) ∨
    (∃ e rest, s.inputs = .event e :: rest ∧ enabled e s = false ∧ t = s) ∨
    (∃ e rest, s.inputs = .event e :: rest ∧ enabled e s = true ∧
      applyEvent hasRaw e { s with inputs := rest, held := heldAfterEvent e s } = .next t) ∨
    (∃ p rest, s.inputs = .edge p :: rest ∧ changesHeldByte p s = false ∧
      applyEvents hasRaw (edgeEvents p s) { s with inputs := rest, held := heldAfterEdge p s } = .next t) := by
  unfold stepWith at h
  split at h
  · exact .inl ⟨‹_›, by simpa using h.symm⟩
  · rename_i e rest hin
    have hen : enabled e { s with inputs := rest, held := heldAfterEvent e s } = enabled e s := by
      cases e <;> rfl
    unfold eventStep at h
    rw [hen] at h
    cases hE : enabled e s with
    | false => exact .inr (.inl ⟨e, rest, hin, hE, by simpa [hE] using h.symm⟩)
    | true => exact .inr (.inr (.inl ⟨e, rest, hin, hE, by simpa [hE] using h⟩))
  · rename_i p rest hin
    unfold edgeStep at h
    split at h
    · cases h
    · rename_i hc
      exact .inr (.inr (.inr ⟨p, rest, hin, by simpa [changesHeldByte] using hc, h⟩))

/-- The step of a state whose next stimulus is an event: held, or the event's next state. -/
theorem stepWith_event {hasRaw : Bool} {s t : State} {e : Event} {rest : List Stimulus}
    (hin : s.inputs = .event e :: rest) (h : stepWith hasRaw s = .next t) :
    (enabled e s = false ∧ t = s) ∨
    (enabled e s = true ∧
      applyEvent hasRaw e { s with inputs := rest, held := heldAfterEvent e s } = .next t) := by
  rcases stepWith_cases h with ⟨h1, _⟩ | ⟨e', r', h1, h2, h3⟩ | ⟨e', r', h1, h2, h3⟩ | ⟨p, r', h1, _⟩
  · simp [hin] at h1
  · rw [hin] at h1
    cases h1
    exact .inl ⟨h2, h3⟩
  · rw [hin] at h1
    cases h1
    exact .inr ⟨h2, h3⟩
  · simp [hin] at h1

end Sys2Proof.Machine
end

