-- ==== Sys2Proof/Tests/Slice0.lean ====
section
/-! SUPPORT. Tests: expected values from 95_test_vectors.md and from hand calculation with the rules; and a
state and operands that meet the premises of each statement that has any. -/

namespace Sys2Proof.Tests

open Sys2Proof Sys2Proof.Machine

/-- The bus after one instruction from reset. -/
def busAfter (i : Instr) : Option Bus :=
  match exec i State.reset with
  | .next s => some s.res.pack
  | .fault _ => none
  | .refused _ => none

/-- A state with the given position, pending flag, layout and stimuli. -/
def st (cnt : BitVec 3) (ov fmt : Bool) (inputs : List Stimulus) : State :=
  { State.reset with cnt := cnt, ov := ov, fmt := fmt, inputs := inputs }

/-- The state after an outcome, if there is one. -/
def after (o : Host.Outcome State Fault Refusal) : Option State :=
  match o with
  | .next s => some s
  | .fault _ => none
  | .refused _ => none

/-! ### WellFormed: each check refuses an ill-formed term (R87) -/

theorem test_wf_unknown_01_refused : (Instr.unknown 0x01#8 0#8 0#8 0#8 0#32).wellFormed = false := by decide
theorem test_wf_unknown_65_refused : (Instr.unknown 0x65#8 0#8 0#8 0#8 0#32).wellFormed = false := by decide
theorem test_wf_unknown_68_refused : (Instr.unknown 0x68#8 0#8 0#8 0#8 0#32).wellFormed = false := by decide
theorem test_wf_unknown_69_refused : (Instr.unknown 0x69#8 0#8 0#8 0#8 0#32).wellFormed = false := by decide
theorem test_wf_unknown_6A_refused : (Instr.unknown 0x6A#8 0#8 0#8 0#8 0#32).wellFormed = false := by decide
theorem test_wf_unknown_6C_refused : (Instr.unknown 0x6C#8 0#8 0#8 0#8 0#32).wellFormed = false := by decide
theorem test_wf_unknown_6B_accepted : (Instr.unknown 0x6B#8 0#8 0#8 0#8 0#32).wellFormed = true := by decide

/-! ### Decode: words written out bit by bit from the table's encodings
(id, B1, B2, B3 as eight bits each, then TS) -/

theorem test_decode_protocolVersion_bits :
    decodeTableWord 64 0b0000000100000001000001001111000000000000000000000000000000000011 =
      some (.protocolVersion 1#8 4#8 0xF0#8 3#32) := by decide
theorem test_decode_joypad_bits :
    decodeTableWord 64 0b0110010100000100000000000000000000000000000000000000000000000000 =
      some (.joypad 4#8 0#8 0#8 0#32) := by decide
theorem test_decode_sendByteMaster_bits :
    decodeTableWord 64 0b0110100010101011000000100000000000000000000000000000000100101100 =
      some (.sendByteMaster 0xAB#8 2#8 0#8 300#32) := by decide
theorem test_decode_sendByteSlave_bits :
    decodeTableWord 64 0b0110100101011010000000110000000000000000000000000000000000000111 =
      some (.sendByteSlave 0x5A#8 3#8 0#8 7#32) := by decide
theorem test_decode_timestamp_bits :
    decodeTableWord 64 0b0110101010000000000000000000010111011110101011011011111011101111 =
      some (.timestamp 0x80#8 0#8 5#8 0xDEADBEEF#32) := by decide
theorem test_decode_status_bits :
    decodeTableWord 64 0b0110110000000001000000000000000000000000000000000000000000000000 =
      some (.status 1#8 0#8 0#8 0#32) := by decide
theorem test_decode_unknown_bits :
    decodeTableWord 64 0b0110101100000001000000100000001100000100000001010000011000000111 =
      some (.unknown 0x6B#8 1#8 2#8 3#8 0x04050607#32) := by decide
theorem test_decode_raw_bytes :
    decodeBytes true [0xFF#8, 1#8, 2#8, 3#8, 4#8, 5#8, 6#8, 7#8] =
      .ok (.raw 0xFF#8 1#8 2#8 3#8 0x04050607#32) := by decide
theorem test_decode_short_refused : decodeBytes false [0x6A#8, 0#8, 0#8] = .error (.malformedFrame 3) := by decide
theorem test_encode_sendByteMaster :
    (encode (.sendByteMaster 0xAB#8 2#8 0#8 300#32)).toList =
      [0x68#8, 0xAB#8, 0x02#8, 0x00#8, 0x00#8, 0x00#8, 0x01#8, 0x2C#8] := by decide

/-- The known identifiers of WellFormed are not Unknown to the decoder (R86). -/
theorem test_knownIds_decode_as_known :
    ∀ n ∈ knownIds, (decodeFrame false (frameOf n 0#8 0#8 0#8 0#32)).kind ≠ .unknown := by decide

/-! ### One instruction each, on the bus (95_test_vectors.md) -/

/-- PV5 -/
theorem test_protocolVersion_largest : busAfter (.protocolVersion 0xFF#8 0xFF#8 0xFF#8 0xFFFFFFFF#32) =
    some 0x000000000000FFFFFFFFFFFFFFFFFF010050#144 := by decide
/-- JOY4 -/
theorem test_joypad_masks_other_bits : busAfter (.joypad 0xFB#8 0#8 0#8 0#32) =
    some 0x0000000000000000000000000000FB650890#144 := by decide
/-- JOY5 -/
theorem test_joypad_pushed : busAfter (.joypad 0xFF#8 0#8 0#8 0#32) =
    some 0x0000000000000004000000000000FF654490#144 := by decide
/-- SBM3 -/
theorem test_sendByteMaster_double_speed : busAfter (.sendByteMaster 0x55#8 0xFD#8 0#8 0#32) =
    some 0x000000000000FD550000000000FD556810D0#144 := by decide
/-- SBM1 -/
theorem test_sendByteMaster_high_speed : busAfter (.sendByteMaster 0xAB#8 0x02#8 0#8 300#32) =
    some 0x0000012C000002AB0000012C0002AB684CD0#144 := by decide
/-- SBS1 -/
theorem test_sendByteSlave_no_timestamp : busAfter (.sendByteSlave 0x5A#8 0x03#8 0#8 7#32) =
    some 0x000000000000035A0000000700035A690110#144 := by decide
/-- TS2 -/
theorem test_timestamp_sync : busAfter (.timestamp 0#8 0xFF#8 0xFF#8 0x12345678#32) =
    some 0x12345678FFFF000012345678FFFF006A5950#144 := by decide
/-- TS4 -/
theorem test_timestamp_response : busAfter (.timestamp 0x80#8 0#8 5#8 0xDEADBEEF#32) =
    some 0x0000000000050000DEADBEEF0500806A1550#144 := by decide
/-- ST3 -/
theorem test_status_running : busAfter (.status 0xFE#8 0#8 0#8 0#32) =
    some 0x0000000000000000000000000000FE6C2190#144 := by decide
/-- UNK9 -/
theorem test_unknown_keeps_raw_fields : busAfter (.unknown 0x6D#8 0xAA#8 0xBB#8 0xCC#8 0x11223344#32) =
    some 0x000000000000006D11223344CCBBAA6D01D0#144 := by decide
/-- RAW3 -/
theorem test_raw_has_no_interpretation : busAfter (.raw 0xFF#8 1#8 2#8 3#8 0x04050607#32) =
    some 0x000000000000000004050607030201FF0230#144 := by decide

/-! ### Renderings, field lists, summaries (R117, R119, R121; 95_test_vectors.md 2.1 and 2.6) -/

/-- SBM4 -/
theorem test_render_largest_timestamp :
    render (resultSendByteMaster 0x55#8 0xFF#8 0#8 0xFFFFFFFF#32) =
      some "Send byte (master): value 85, high speed, timestamp 4294967295" := by decide
/-- TS4 -/
theorem test_fieldList_response :
    fieldList (resultTimestamp 0x80#8 0#8 5#8 0xDEADBEEF#32) =
      some [⟨"command", [0x6A#8], some (.kind .timestamp)⟩, ⟨"byte1", [0x80#8], none⟩, ⟨"byte2", [0#8], none⟩,
        ⟨"byte3", [5#8], none⟩, ⟨"timestamp", [0xDE#8, 0xAD#8, 0xBE#8, 0xEF#8], none⟩,
        ⟨"transfer_mode", [0x80#8], some (.label .activeTransferResponse)⟩,
        ⟨"framecount", [0#8, 5#8], some (.half 5#16)⟩] := by decide
/-- TS1 -/
theorem test_summary_sync :
    summary (resultTimestamp 0#8 0#8 5#8 0#32) = some [.mode .synchronization, .framecount 5#16, .timestamp 0#32] := by
  decide
/-- After reset RES stands for no result (R31). -/
theorem test_no_result_after_reset :
    fieldList Res.zero = none ∧ summary Res.zero = none ∧ render Res.zero = none := by decide

/-! ### Single events and edges (95_test_vectors.md 2.4, 2.5) -/

/-- V5 -/
theorem test_one_byte_run : after (stepWith false (st 0#3 false false [.event (.byteIn 0x6A#8 true)])) =
    some { st 0#3 true false [] with
      fb := #v[0x6A#8, 0#8, 0#8, 0#8, 0#8, 0#8, 0#8], res := { Res.zero with status := true, len := 1#4 } } := by
  decide
/-- V7 -/
theorem test_byteIn_held : after (stepWith false (st 0#3 true false [.event (.byteIn 0x65#8 false)])) =
    some (st 0#3 true false [.event (.byteIn 0x65#8 false)]) := by decide
/-- V12 -/
theorem test_cfgWrite_only_bit0 : after (stepWith true (st 3#3 false true [.event (.cfgWrite 0#2 0xFE#8)])) =
    some (st 3#3 false false []) := by decide
/-- V10 -/
theorem test_cfgWrite_hardwired : after (stepWith false (st 3#3 false false [.event (.cfgWrite 0#2 0x01#8)])) =
    some (st 3#3 false false []) := by decide
/-- V17, V18 -/
theorem test_status_register : (st 7#3 false false []).cfgByte false 1#2 = 0x07#8 ∧
    (st 0#3 true false []).cfgByte false 1#2 = 0x08#8 := by decide
/-- K1: one byte per cycle -/
theorem test_edge_take_then_byte :
    after (stepWith false (st 0#3 true false [.edge ⟨false, true, 0x6A#8, false, true, 0#2, false, 0#8⟩])) =
      some { st 1#3 false false [] with fb := #v[0x6A#8, 0#8, 0#8, 0#8, 0#8, 0#8, 0#8], taken := [Res.zero] } := by
  decide
/-- K3: with rst only Reset occurs -/
theorem test_edge_reset_alone :
    after (stepWith false (st 3#3 false false [.edge ⟨true, true, 0x6A#8, false, true, 0#2, true, 1#8⟩])) =
      some State.reset := by decide
/-- The word the host places is the instruction that runs (SBM1). -/
theorem test_fetch_word_runs :
    (after (step (State.reset.withFetchWord 64 0x68AB02000000012C))).map (fun t => (t.res.pack, t.ov, t.cnt)) =
      some (0x0000012C000002AB0000012C0002AB684CD0#144, true, 0#3) := by decide
/-- P4: the program is stuck at `INB 65` (R93, R244). -/
theorem test_program_stuck_at_held_byte :
    (after (runWith false 11 (st 0#3 false false
      (stimuli [.inFrame (.version 1#8 4#8) false, .rd 1#2, .inByte 0x65#8 false])))).map
        (fun t => (t.res.pack, t.ov, t.reads, t.inputs)) =
      some (0x000000000000040100000000000401010050#144, true, [0x08#8], [.event (.byteIn 0x65#8 false)]) := by
  decide

/-! ### Witnesses: the premises of each statement are met -/

theorem test_witness_EncodeThenDecodeIsIdentity :
    (Instr.unknown 0x66#8 1#8 2#8 3#8 4#32).wellFormed = true ∧ (Instr.raw 0x65#8 1#8 2#8 3#8 4#32).wellFormed = true := by
  decide

theorem test_witness_UnknownIdsAreTheListedOnes :
    (frameOf 0x01#8 0#8 0#8 0#8 0#32)[0] ≠ (frameOf 0x02#8 0#8 0#8 0#8 0#32)[0] ∧
    (frameOf 0x6C#8 0#8 0#8 0#8 0#32)[0] ≠ (frameOf 0x6D#8 0#8 0#8 0#8 0#32)[0] ∧
    (frameOf 0x01#8 0#8 0#8 0#8 0#32)[0] ∈ knownIds ∧ (frameOf 0x6C#8 0#8 0#8 0#8 0#32)[0] ∈ knownIds ∧
    ∀ n ∈ [0x00#8, 0x02#8, 0x64#8, 0x66#8, 0x67#8, 0x6B#8, 0x6D#8, 0xFF#8],
      decode false (frameOf n 0#8 0#8 0#8 0#32) = .unknown n 0#8 0#8 0#8 0#32 := by decide

theorem test_witness_InterpretedValuesAtTheirBitsOfW :
    ∀ n ∈ [0x01#8, 0x65#8, 0x68#8, 0x69#8, 0x6A#8, 0x6C#8, 0x6D#8],
      ((n ++ 0#56 : FrameWord).extractLsb' 56 8 = n ∧ (n ++ 0#56 : FrameWord).extractLsb' 48 8 = 0#8) := by decide

theorem test_witness_BufferDecodesOnlyAtEightBytes :
    ([] : List Byte).length ≠ 8 ∧ (List.replicate 7 0#8).length ≠ 8 ∧ (List.replicate 9 0#8).length ≠ 8 := by decide

theorem test_witness_BusAndRecordAgree :
    Res.unpack 0#144 = some Res.zero ∧
    Res.unpack 0x0000012C000002AB0000012C0002AB684CD0#144 = some (resultSendByteMaster 0xAB#8 2#8 0#8 300#32) ∧
    Res.unpack 0x8000#144 = none := by decide

/-- OverlappingViewsAreBothProduced, and the first clause of ProtocolVersionEmitsMajorAndMinor,
JoypadEmitsButtonAndState, SendByteMasterEmitsValueSpeedAndTime, SendByteSlaveEmitsValueAndControl,
TimestampEmitsFramecountAndBranch and StatusEmitsPausedOrRunning. -/
theorem test_witness_instruction_frames :
    ∀ n ∈ [0x01#8, 0x65#8, 0x68#8, 0x69#8, 0x6A#8, 0x6C#8, 0xFF#8], (frameOf n 4#8 2#8 3#8 4#32)[0] = n := by decide

theorem test_witness_UnknownEmitsTheRawId :
    (frameOf 0xFF#8 0#8 0#8 0#8 0#32)[0] ∉ [0x01#8, 0x65#8, 0x68#8, 0x69#8, 0x6A#8, 0x6C#8] := by decide

theorem test_witness_TimestampEmitsFramecountAndBranch : (0x00#8 : Byte) = 0#8 ∧ (0x80#8 : Byte) ≠ 0#8 := by decide

/-- An Unknown frame. -/
theorem test_witness_StepRunsTheDecodedInstruction :
    let s := st 7#3 false false [.event (.byteIn 5#8 true)]
    s.inputs = .event (.byteIn 5#8 true) :: [] ∧ s.ov = false ∧ s.cnt = 7#3 ∧
    decodeBytes (s.layout Config.hasRawMode)
      [s.fb[0], s.fb[1], s.fb[2], s.fb[3], s.fb[4], s.fb[5], s.fb[6], 5#8] = .ok (.unknown 0#8 0#8 0#8 0#8 5#32) :=
  ⟨rfl, rfl, rfl, by decide⟩

/-- Also CompletionBeatsEndOfRun and the last clause of FmtIsHardwiredWithoutRawMode. -/
theorem test_witness_ByteInCompletesAFrame :
    ∀ e ∈ [true, false], let s := st 7#3 false true [.event (.byteIn 5#8 e)]
      s.inputs = .event (.byteIn 5#8 e) :: [] ∧ s.ov = false ∧ s.cnt = 7#3 := by decide

theorem test_witness_ByteInStoresAndAdvances :
    ∀ c ∈ [0#3, 6#3], let s := st c false false [.event (.byteIn 5#8 false)]
      s.inputs = .event (.byteIn 5#8 false) :: [] ∧ s.ov = false ∧ s.cnt.toNat < 7 := by decide

theorem test_witness_ByteInEndsARunWithMalformed :
    ∀ c ∈ [0#3, 6#3], let s := st c false false [.event (.byteIn 5#8 true)]
      s.inputs = .event (.byteIn 5#8 true) :: [] ∧ s.ov = false ∧ s.cnt.toNat < 7 := by decide

theorem test_witness_TakeDeliversAndClears :
    ∀ b ∈ [true, false], let s := st 0#3 b false [.event .take]
      s.inputs = .event .take :: [] ∧ s.ov = b := by decide

/-- CfgWriteSetsOnlyFmt, FmtIsHardwiredWithoutRawMode and ConfigurationAccessesAreIdempotent. -/
theorem test_witness_CfgWriteSetsOnlyFmt :
    (∀ a : CfgAddr, (st 3#3 true false [.event (.cfgWrite a 1#8)]).inputs = .event (.cfgWrite a 1#8) :: []) ∧
    (3#2 : CfgAddr) ≠ 0#2 ∧ (1#2 : CfgAddr) ≠ 0#2 := by
  exact ⟨fun _ => rfl, by decide, by decide⟩

/-- CfgReadReturnsTheRegister, each address. -/
theorem test_witness_CfgReadReturnsTheRegister :
    ∀ a : CfgAddr, (st 3#3 true false [.event (.cfgRead a)]).inputs = .event (.cfgRead a) :: [] := fun _ => rfl

theorem test_witness_StepIsPartialAndSingleValued :
    (eventStep false (.byteIn 1#8 false) (st 0#3 true false [])).isNone = true ∧
    (eventStep false .take (st 0#3 false false [])).isNone = true ∧
    (eventStep false .take (st 0#3 true false [])).isNone = false ∧
    (st 2#3 false false []).inputs = [] := by decide

theorem test_witness_ResetClearsTheBlock :
    (st 4#3 false true [.event .reset]).inputs = .event .reset :: [] := rfl

/-- States that meet the invariant: a partial frame of 7 bytes, and a pending Malformed(7). -/
theorem test_witness_invariant_partial (inputs : List Stimulus) : (st 7#3 false false inputs).Inv Config.hasRawMode where
  pending_at_boundary h := by cases h
  fmt_wired _ := rfl
  res_shape := .inl ⟨rfl, rfl⟩
  taken_shape := by simp [st, State.reset]
  held_waits h := by cases h

theorem test_witness_invariant_pending (hasRaw : Bool) (inputs : List Stimulus) :
    ({ st 0#3 true false inputs with res := malformedResult 7#4, held := some (1#8, false) }).Inv hasRaw where
  pending_at_boundary _ := rfl
  fmt_wired _ := rfl
  res_shape := .inr (.inr ⟨7#4, by decide, by decide, rfl⟩)
  taken_shape := by simp [st, State.reset]
  held_waits _ := rfl

/-- EveryStepKeepsTheInvariant: from such a state a step answers a next state. -/
theorem test_witness_EveryStepKeepsTheInvariant :
    let s := st 7#3 false false [.event (.byteIn 5#8 true)]
    s.Inv Config.hasRawMode ∧ ∃ t, step s = .next t :=
  ⟨test_witness_invariant_partial _, _, rfl⟩

/-- The same for the clause over stepWith, and for StatusReadsOnlyLegalValues. -/
theorem test_witness_StatusReadsOnlyLegalValues :
    let s := { st 0#3 true false [.event .take] with res := malformedResult 7#4, held := some (1#8, false) }
    s.Inv true ∧ ∃ t, stepWith true s = .next t :=
  ⟨test_witness_invariant_pending true _, _, rfl⟩

theorem test_witness_LayoutIsSampledAtCompletion :
    let s := st 7#3 false false [.event (.cfgWrite 0#2 1#8), .event (.byteIn 5#8 false)]
    s.inputs = .event (.cfgWrite 0#2 1#8) :: .event (.byteIn 5#8 false) :: [] ∧ s.ov = false ∧ s.cnt = 7#3 := by decide

/-- A byte that advances CNT, one that completes a frame, and a Take that leaves CNT. -/
theorem test_witness_CntAdvancesByOneOrReturnsToZero :
    ([st 6#3 false false [.event (.byteIn 5#8 false)], st 7#3 false false [.event (.byteIn 5#8 false)],
      st 0#3 true false [.event .take]].map fun s => (after (stepWith false s)).map State.cnt) =
      [some 7#3, some 0#3, some 0#3] := by decide

/-- A byte stored at each end of the buffer changes the entry at CNT. -/
theorem test_witness_FrameBufferIsWrittenOnlyAtCnt :
    ∀ c ∈ [0#3, 6#3], let s := st c false false [.event (.byteIn 5#8 false)]
      (after (stepWith false s)).map (fun t => t.fb[c.toNat]? != s.fb[c.toNat]?) = some true := by decide

/-- ResKeepsItsValueUntilEmitOrReset: Take with a result pending, Reset, and an emitted result. -/
theorem test_witness_ResKeepsItsValueUntilEmitOrReset :
    (∃ t, stepWith false (st 0#3 true false [.event .take]) = .next t) ∧
    (∃ t, stepWith false (st 0#3 true false [.event .reset]) = .next t) ∧
    Emitted false (malformedResult 1#4) :=
  ⟨⟨_, rfl⟩, ⟨_, rfl⟩, .inr ⟨1#4, by decide, by decide, rfl⟩⟩

theorem test_witness_OnlyARunEndRaisesMalformed :
    ∀ c ∈ [0#3, 6#3], let s := st c false false [.event (.byteIn 5#8 true)]
      s.ov = false ∧ (after (stepWith false s)).map (fun t => (t.ov, t.res.status)) = some (true, true) := by decide

/-- ClockEdgeIsTakeThenByteThenWrite: with a byte held back and kept, with and without rst. -/
theorem test_witness_ClockEdgeIsTakeThenByteThenWrite :
    ∀ r ∈ [true, false],
      keepsHeldByte ⟨r, true, 1#8, false, true, 0#2, true, 1#8⟩ { st 0#3 true false [] with held := some (1#8, false) } := by
  intro r _ d eos h _ _
  cases h
  exact ⟨rfl, rfl⟩

theorem test_witness_TakeNeverMeetsACompletingByte :
    ∀ e ∈ [true, false], let p : Pins := ⟨false, true, 1#8, e, true, 0#2, false, 0#8⟩
      let s := { st 0#3 true false [.edge p] with res := malformedResult 7#4 }
      s.inputs = .edge p :: [] ∧ keepsHeldByte p s ∧ s.Inv false ∧ p.rst = false ∧ s.ov = true ∧
        p.outReady = true ∧ p.inValid = true := by
  intro e _
  refine ⟨rfl, ?_, ⟨fun _ => rfl, fun _ => rfl, .inr (.inr ⟨7#4, by decide, by decide, rfl⟩), ?_, ?_⟩,
    rfl, rfl, rfl, rfl⟩
  · intro d eos h
    cases h
  · simp [st, State.reset]
  · intro h
    cases h

theorem test_witness_SameEdgeWriteComesAfterTheDecode :
    let p : Pins := ⟨false, true, 0x2C#8, false, false, 0#2, true, 1#8⟩
    let s := st 7#3 false false [.edge p]
    s.inputs = .edge p :: [] ∧ keepsHeldByte p s ∧ s.ov = false ∧ s.cnt = 7#3 ∧ p.rst = false ∧
      p.inValid = true ∧ p.cfgWe = true ∧ p.cfgAddr = 0#2 := by
  refine ⟨rfl, ?_, rfl, rfl, rfl, rfl, rfl, rfl⟩
  intro d eos h
  cases h

theorem test_witness_ByteIsHeldWhileAResultIsPending :
    let p : Pins := ⟨false, true, 1#8, false, false, 0#2, false, 0#8⟩
    let s := { st 0#3 true false [.edge p] with held := some (1#8, false) }
    let u := { st 0#3 true false [.edge p] with held := some (1#8, true) }
    (s.inputs = .edge p :: [] ∧ keepsHeldByte p s ∧ s.ov = true ∧ p.rst = false ∧ p.outReady = false ∧
      p.inValid = true ∧ p.cfgWe = false) ∧
    (u.inputs = .edge p :: [] ∧ u.held = some (1#8, true) ∧ (p.inData ≠ 1#8 ∨ p.inEos ≠ true)) := by
  refine ⟨⟨rfl, ?_, rfl, rfl, rfl, rfl, rfl⟩, rfl, rfl, .inr (by decide)⟩
  intro d eos h _ _
  cases h
  exact ⟨rfl, rfl⟩

theorem test_witness_MnemonicFormsDecode :
    (FrameForm.tack 0x01#8 5#16).wellFormed = true ∧ (FrameForm.tack 0x00#8 5#16).wellFormed = false := by decide

/-- StaleBytesNeverLeak: two states that differ in FB[2] and FB[6] at CNT = 2, and a step of the first. -/
theorem test_witness_StaleBytesNeverLeak :
    let s := { st 2#3 false false [.event (.byteIn 5#8 true)] with fb := #v[1#8, 2#8, 3#8, 0#8, 0#8, 0#8, 7#8] }
    let t := { st 2#3 false false [.event (.byteIn 5#8 true)] with fb := #v[1#8, 2#8, 9#8, 0#8, 0#8, 0#8, 8#8] }
    SameButStale s t ∧ s ≠ t ∧ ∃ s', stepWith false s = .next s' := by
  refine ⟨⟨rfl, ?_⟩, by decide, _, rfl⟩
  intro i h hi
  match i, h, hi with
  | 0, _, _ => rfl
  | 1, _, _ => rfl

theorem test_witness_AFrameDecodesWhateverCameBefore :
    let s := st 0#3 false false ((frameEvents (frameOf 0x68#8 1#8 2#8 3#8 4#32) true).map .event)
    s.cnt = 0#3 ∧ s.ov = false ∧
      s.inputs = (frameEvents (frameOf 0x68#8 1#8 2#8 3#8 4#32) true).map .event ++ [] := by decide

/-- NoPendingResultIsLost: a Take, a held byte, and an edge that takes. -/
theorem test_witness_NoPendingResultIsLost :
    ∀ x ∈ [Stimulus.event .take, .event (.byteIn 1#8 true), .edge ⟨false, true, 1#8, true, true, 0#2, false, 0#8⟩],
      (st 0#3 true false [x]).ov = true ∧ (∃ t, stepWith false (st 0#3 true false [x]) = .next t) ∧
      (∀ rest, (st 0#3 true false [x]).inputs ≠ .event .reset :: rest) ∧
      (∀ p rest, (st 0#3 true false [x]).inputs = .edge p :: rest → p.rst = false) := by
  intro x hx
  simp only [List.mem_cons, List.not_mem_nil, or_false] at hx
  rcases hx with rfl | rfl | rfl
  · exact ⟨rfl, ⟨_, rfl⟩, (by intro r h; cases h), (by intro p r h; cases h)⟩
  · exact ⟨rfl, ⟨_, rfl⟩, (by intro r h; cases h), (by intro p r h; cases h)⟩
  · exact ⟨rfl, ⟨_, rfl⟩, (by intro r h; cases h), (by intro p r h; cases h; rfl)⟩

theorem test_witness_AResultNotTakenHoldsTheInput :
    let s := st 0#3 true false [.event (.cfgRead 1#2), .event (.byteIn 1#8 true),
      .edge ⟨false, true, 1#8, true, false, 0#2, true, 1#8⟩]
    s.ov = true ∧ (∀ x ∈ s.inputs, x.quiet = true) ∧ ∃ t, runWith true 3 s = .next t :=
  ⟨rfl, by decide, _, rfl⟩

/-- ARunGivesItsFramesThenItsRemainder: the empty run, one byte, and nine bytes with a write of CTRL inside. -/
theorem test_witness_ARunGivesItsFramesThenItsRemainder :
    ∀ xs ∈ [[], [⟨[], 0x6A#8⟩], List.replicate 8 ⟨[], 0x6A#8⟩ ++ [⟨[(0#2, 1#8)], 0x01#8⟩]],
      let s := st 0#3 false false ((runEvents 0 xs).map .event)
      s.cnt = 0#3 ∧ s.ov = false ∧ s.inputs = (runEvents 0 xs).map .event ++ [] := by decide

end Sys2Proof.Tests
end

