-- ==== Sys2Proof/Proofs/FrameBoundary.lean ====
section
/-! PROOFS. A frame from a frame boundary (R13, R115): the bytes accepted so far as a list, what a row of
stored bytes leaves in the state, and the 8 steps of a whole frame. -/

namespace Sys2Proof.Machine

/-- The step of a state whose next stimulus is an enabled event is that event (R176). -/
theorem stepWith_of_enabled {hasRaw : Bool} {s : State} {e : Event} {rest : List Stimulus}
    (hin : s.inputs = .event e :: rest) (hen : enabled e s = true) :
    stepWith hasRaw s = applyEvent hasRaw e { s with inputs := rest, held := heldAfterEvent e s } := by
  have hen' : enabled e { s with inputs := rest, held := heldAfterEvent e s } = true := by
    cases e <;> exact hen
  simp [stepWith, hin, eventStep, hen']

/-- A byte accepted with nothing pending (R52, R170 to R172). -/
theorem stepWith_byteIn {hasRaw : Bool} {s : State} {d : Byte} {eos : Bool} {rest : List Stimulus}
    (hov : s.ov = false) (hin : s.inputs = .event (.byteIn d eos) :: rest) :
    stepWith hasRaw s = byteIn hasRaw d eos { s with inputs := rest, held := none } :=
  stepWith_of_enabled hin (by simp [enabled, hov])

/-- The 8th byte completes the frame, whatever eos is (R171, R205). -/
theorem byteIn_complete {hasRaw : Bool} {d : Byte} {eos : Bool} {s : State} (hcnt : s.cnt = 7#3) :
    byteIn hasRaw d eos s = completeFrame hasRaw d s := if_pos hcnt

/-- A byte before the 8th that does not end the run is stored (R170). -/
theorem byteIn_store {hasRaw : Bool} {d : Byte} {s : State} (hcnt : s.cnt ≠ 7#3) :
    byteIn hasRaw d false s = .next (storeByte d s) := by
  simp [byteIn, hcnt]

/-- Completion emits Decode of FB[0..6] and the completing byte, and closes the frame (R171). -/
theorem completeFrame_eq (hasRaw : Bool) (d : Byte) (s : State) :
    completeFrame hasRaw d s = .next (s.emit (decodeFrame (s.layout hasRaw) (s.fb.push d))).closeFrame :=
  exec_eq _ s

/-- The bytes of the current frame accepted so far: FB[0] to FB[CNT - 1] (R21, R22). -/
def State.accepted (s : State) : List Byte := s.fb.toList.take s.cnt.toNat

/-- At a frame boundary the frame buffer holds stale bytes only (R23). -/
theorem State.accepted_of_boundary {s : State} (hcnt : s.cnt = 0#3) : s.accepted = [] := by
  simp [State.accepted, hcnt]

/-- With CNT = 7 no byte of the frame buffer is stale. -/
theorem State.accepted_of_full {s : State} (hcnt : s.cnt = 7#3) : s.accepted = s.fb.toList := by
  simp [State.accepted, hcnt]

/-- A stored byte is appended to the accepted ones, whatever the stale bytes are (R170). -/
theorem accepted_storeByte {s : State} (d : Byte) (hcnt : s.cnt ≠ 7#3) :
    (storeByte d s).accepted = s.accepted ++ [d] := by
  have hnext : (s.cnt + 1#3).toNat = s.cnt.toNat + 1 := cnt_advance_toNat hcnt
  have hlt : s.cnt.toNat < 7 := by
    have := (s.cnt + 1#3).isLt
    omega
  simp [State.accepted, hnext, List.take_add_one, hlt, List.take_set_of_le]

/-- The state after a row of stored bytes, none of which completes a frame or ends a run (R170). -/
def storeBytes : List Byte → State → State
  | [], s => s
  | b :: bs, s => storeBytes bs (storeByte b s)

/-- Stored bytes change CNT and FB, and nothing else (R170). -/
theorem storeBytes_frame (bs : List Byte) (s : State) :
    storeBytes bs s = { s with cnt := (storeBytes bs s).cnt, fb := (storeBytes bs s).fb } := by
  induction bs generalizing s with
  | nil => rfl
  | cons b bs ih => exact ih (storeByte b s)

/-- CNT below 7 in the words of the byte count. -/
theorem cnt_ne_seven_of_lt {cnt : BitVec 3} (h : cnt.toNat < 7) : cnt ≠ 7#3 := by
  rintro rfl
  exact absurd h (by decide)

/-- Stored bytes that fit in the frame buffer advance CNT by their number and are accepted in order. -/
theorem storeBytes_accepts (bs : List Byte) {s : State} (hfit : s.cnt.toNat + bs.length ≤ 7) :
    (storeBytes bs s).cnt.toNat = s.cnt.toNat + bs.length ∧
      (storeBytes bs s).accepted = s.accepted ++ bs := by
  induction bs generalizing s with
  | nil => simp [storeBytes]
  | cons b bs ih =>
    rw [List.length_cons] at hfit
    have hcnt : s.cnt ≠ 7#3 := cnt_ne_seven_of_lt (by omega)
    have hnext : (storeByte b s).cnt.toNat = s.cnt.toNat + 1 := cnt_advance_toNat hcnt
    obtain ⟨hcnt', hacc⟩ := ih (s := storeByte b s) (by omega)
    refine ⟨?_, ?_⟩
    · rw [storeBytes, hcnt', hnext, List.length_cons]
      omega
    · rw [storeBytes, hacc, accepted_storeByte b hcnt, List.append_assoc, List.singleton_append]

/-- From a frame boundary the first 7 bytes of a frame make FB[0..6] those bytes, whatever stood there (R23). -/
theorem storeBytes_of_boundary (f : Frame) {s : State} (hcnt : s.cnt = 0#3) :
    storeBytes f.pop.toList s = { s with cnt := 7#3, fb := f.pop } := by
  have hlen : f.pop.toList.length = 7 := f.pop.length_toList
  have hzero : s.cnt.toNat = 0 := congrArg BitVec.toNat hcnt
  obtain ⟨hcnt', hacc⟩ := storeBytes_accepts f.pop.toList (s := s) (by omega)
  have hfull : (storeBytes f.pop.toList s).cnt = 7#3 := BitVec.eq_of_toNat_eq (by rw [hcnt', hzero, hlen]; rfl)
  have hfb : (storeBytes f.pop.toList s).fb = f.pop := by
    rw [State.accepted_of_full hfull, State.accepted_of_boundary hcnt, List.nil_append] at hacc
    exact Vector.toList_inj.mp hacc
  rw [storeBytes_frame, hfull, hfb]

/-- The bytes that fill the current frame and its completing byte, run as events: each is stored, and the last
completes the frame (R170, R171). -/
theorem runWith_fillFrame {hasRaw : Bool} {d : Byte} {eos : Bool} {rest : List Stimulus} (bs : List Byte)
    {s : State} (hov : s.ov = false) (hfill : s.cnt.toNat + bs.length = 7)
    (hin : s.inputs = (bs.map (Event.byteIn · false) ++ [Event.byteIn d eos]).map .event ++ rest) :
    runWith hasRaw (bs.length + 1) s =
      completeFrame hasRaw d (storeBytes bs { s with inputs := rest, held := none }) := by
  induction bs generalizing s with
  | nil =>
    have hcnt : s.cnt = 7#3 := BitVec.eq_of_toNat_eq hfill
    have hstep : stepWith hasRaw s = completeFrame hasRaw d { s with inputs := rest, held := none } :=
      (stepWith_byteIn hov hin).trans (byteIn_complete hcnt)
    simp [runWith, hstep, completeFrame_eq, storeBytes]
  | cons b bs ih =>
    rw [List.length_cons] at hfill
    have hcnt : s.cnt ≠ 7#3 := cnt_ne_seven_of_lt (by omega)
    have hstep := (stepWith_byteIn (hasRaw := hasRaw) hov hin).trans (byteIn_store hcnt)
    rw [List.length_cons, runWith, hstep, andThen_of_next, ih]
    · rfl
    · exact hov
    · rw [storeByte_cnt, cnt_advance_toNat hcnt]
      omega
    · rfl

end Sys2Proof.Machine

namespace Sys2Proof.Proofs

open Sys2Proof Sys2Proof.Machine

/-- Settles O49: seven stores make FB[0..6] the frame's first seven bytes whatever stood there, so the eighth
byte completes exactly that frame. -/
theorem aFrameDecodesWhateverCameBefore : Obligations.AFrameDecodesWhateverCameBefore := by
  intro hasRaw s f eos rest hcnt hov hin
  have hlen : f.pop.toList.length = 7 := f.pop.length_toList
  have hfill : s.cnt.toNat + f.pop.toList.length = 7 := by rw [hcnt, hlen]; rfl
  have hrun := runWith_fillFrame (hasRaw := hasRaw) f.pop.toList hov hfill hin
  have hpush : (f.pop : Vector Byte 7).push f[7] = f := Vector.push_pop_back f
  rw [hlen, storeBytes_of_boundary f (s := { s with inputs := rest, held := none }) hcnt, completeFrame_eq,
    hpush] at hrun
  exact ⟨_, hrun, rfl, rfl, rfl, rfl, rfl, rfl, rfl⟩

end Sys2Proof.Proofs
end

section
/-! PROOFS. A step as a sequence of enabled events: the step read forwards, and the events of a clock edge, each of
which occurs in the state the one before it left (R176, R240). -/

namespace Sys2Proof.Machine

/-- With no stimulus the block keeps its state (R214). -/
theorem stepWith_idle {hasRaw : Bool} {s : State} (hin : s.inputs = []) : stepWith hasRaw s = .next s := by
  simp [stepWith, hin]

/-- An event that is not enabled is held (R176). -/
theorem stepWith_of_disabled {hasRaw : Bool} {s : State} {e : Event} {rest : List Stimulus}
    (hin : s.inputs = .event e :: rest) (hen : enabled e s = false) : stepWith hasRaw s = .next s := by
  have hen' : enabled e { s with inputs := rest, held := heldAfterEvent e s } = false := by
    cases e <;> exact hen
  simp [stepWith, hin, eventStep, hen']

/-- A clock edge at which the host keeps the byte held back is its events in order (R240). -/
theorem stepWith_of_edge {hasRaw : Bool} {s : State} {p : Pins} {rest : List Stimulus}
    (hin : s.inputs = .edge p :: rest) (hkeep : changesHeldByte p s = false) :
    stepWith hasRaw s =
      applyEvents hasRaw (edgeEvents p s) { s with inputs := rest, held := heldAfterEdge p s } := by
  have hkeep' : changesHeldByte p { s with inputs := rest } = false := hkeep
  simp only [stepWith, hin, edgeStep, hkeep']
  rfl

/-- A byte before the 8th that ends the run raises the error (R172). -/
theorem byteIn_endRun {hasRaw : Bool} {d : Byte} {s : State} (hcnt : s.cnt ≠ 7#3) :
    byteIn hasRaw d true s = .next (endRun d s) := by
  simp [byteIn, hcnt]

/-- Events in a row, split at the first. -/
theorem applyEvents_cons {hasRaw : Bool} {e : Event} {es : List Event} {s t : State} :
    applyEvents hasRaw (e :: es) s = .next t ↔
      ∃ u, applyEvent hasRaw e s = .next u ∧ applyEvents hasRaw es u = .next t :=
  andThen_next

/-- The events take `s` to `t`, each of them enabled in the state the one before it left (R176, R240). -/
inductive Occurs (hasRaw : Bool) : List Event → State → State → Prop where
  | nil (s : State) : Occurs hasRaw [] s s
  | cons {e : Event} {es : List Event} {s u t : State} (hen : enabled e s = true)
      (hstep : applyEvent hasRaw e s = .next u) (hrest : Occurs hasRaw es u t) : Occurs hasRaw (e :: es) s t

/-- An event that occurs when `c` holds, before events that occur from wherever it leads. -/
theorem Occurs.of_optional {hasRaw c : Bool} {e : Event} {es : List Event} {s t : State}
    (hen : c = true → enabled e s = true)
    (hrest : ∀ u, (c = true → applyEvent hasRaw e s = .next u) → (c = false → u = s) →
      applyEvents hasRaw es u = .next t → Occurs hasRaw es u t)
    (h : applyEvents hasRaw ((if c then [e] else []) ++ es) s = .next t) :
    Occurs hasRaw ((if c then [e] else []) ++ es) s t := by
  cases c with
  | false => exact hrest s nofun (fun _ => rfl) h
  | true =>
    obtain ⟨u, hu, hes⟩ := applyEvents_cons.mp h
    exact .cons (hen rfl) hu (hrest u (fun _ => hu) nofun hes)

/-- A Take leaves nothing pending (R173). -/
theorem ov_of_take {hasRaw : Bool} {s t : State} (h : applyEvent hasRaw .take s = .next t) : t.ov = false := by
  cases h
  rfl

/-- At a clock edge every event occurs where it is enabled: a byte is accepted with nothing pending, or the Take
before it has cleared OV (R52, R240). -/
theorem occurs_edgeEvents {hasRaw : Bool} {p : Pins} {s u t : State} (hov : u.ov = s.ov)
    (h : applyEvents hasRaw (edgeEvents p s) u = .next t) : Occurs hasRaw (edgeEvents p s) u t := by
  unfold edgeEvents at h ⊢
  cases hrst : p.rst with
  | true =>
    simp only [hrst, if_true] at h ⊢
    obtain ⟨v, hv, hnil⟩ := applyEvents_cons.mp h
    cases hnil
    exact .cons rfl hv (.nil _)
  | false =>
    simp only [hrst, Bool.false_eq_true, if_false, List.append_assoc] at h ⊢
    refine .of_optional (fun htake => ?_) (fun v htaken hnot hv => ?_) h
    · simp_all [enabled, outValid]
    have hready : inReady p s = true → v.ov = false := by
      intro hr
      cases hpend : s.ov with
      | true => exact ov_of_take (htaken (by simpa [inReady, outValid, hpend] using hr))
      | false => rw [hnot (by simp [outValid, hpend]), hov, hpend]
    refine .of_optional (fun hbyte => ?_) (fun w _ _ hw => ?_) hv
    · simp_all [enabled]
    · rw [← List.append_nil (if p.cfgWe then _ else _)] at hw ⊢
      refine .of_optional (fun _ => rfl) (fun x _ _ hx => ?_) hw
      cases hx
      exact .nil _

end Sys2Proof.Machine
end

section
/-! PROOFS. The invariant of the block (R24, R27, R30, R52, R200): what each operation asks of it, one enabled event,
and the step. -/

namespace Sys2Proof.Machine

/-- Every frame decodes to a result that Decode produces, RAW only where the raw layout is there (R27, R92). -/
theorem emitted_decodeFrame (hasRaw : Bool) (s : State) (f : Frame) :
    Emitted hasRaw (decodeFrame (s.layout hasRaw) f) := by
  refine .inl ⟨s.layout hasRaw, f, fun hraw => ?_, rfl⟩
  exact (Bool.and_eq_true_iff.mp hraw).2

/-- A run that ends below CNT = 7 gives one of Malformed(1) to Malformed(7) (R172, R200). -/
theorem emitted_malformedLen (hasRaw : Bool) {cnt : BitVec 3} (hcnt : cnt ≠ 7#3) :
    Emitted hasRaw (malformedResult (malformedLen cnt)) := by
  have hlen : (malformedLen cnt).toNat = cnt.toNat + 1 := malformedLen_toNat cnt
  have hnext : (cnt + 1#3).toNat = cnt.toNat + 1 := cnt_advance_toNat hcnt
  have hlt := (cnt + 1#3).isLt
  exact .inr ⟨_, by omega, by omega, rfl⟩

namespace State.Inv

variable {hasRaw : Bool} {s : State}

/-- The invariant asks nothing of the stimuli, and of a byte held back only that a result is pending. -/
theorem withHost (hinv : s.Inv hasRaw) (inputs : List Stimulus) {held : Option (Byte × Bool)}
    (hheld : held.isSome = true → s.ov = true) : { s with inputs := inputs, held := held }.Inv hasRaw where
  pending_at_boundary := hinv.pending_at_boundary
  fmt_wired := hinv.fmt_wired
  res_shape := hinv.res_shape
  taken_shape := hinv.taken_shape
  held_waits := hheld

theorem writeFB (hinv : s.Inv hasRaw) (d : Byte) : (s.writeFB d).Inv hasRaw where
  pending_at_boundary := hinv.pending_at_boundary
  fmt_wired := hinv.fmt_wired
  res_shape := hinv.res_shape
  taken_shape := hinv.taken_shape
  held_waits := hinv.held_waits

/-- An emit closes the frame, so its pending result stands at a frame boundary (R24). -/
theorem emit_closeFrame (hinv : s.Inv hasRaw) {r : Res} (hr : Emitted hasRaw r) :
    (s.emit r).closeFrame.Inv hasRaw where
  pending_at_boundary _ := rfl
  fmt_wired := hinv.fmt_wired
  res_shape := .inr hr
  taken_shape := hinv.taken_shape
  held_waits _ := rfl

/-- CNT leaves 0 only with nothing pending (R52). -/
theorem storeByte (hinv : s.Inv hasRaw) (d : Byte) (hov : s.ov = false) :
    (storeByte d s).Inv hasRaw where
  pending_at_boundary hpend := by simp [hov] at hpend
  fmt_wired := hinv.fmt_wired
  res_shape := hinv.res_shape
  taken_shape := hinv.taken_shape
  held_waits := hinv.held_waits

/-- A pending RES was emitted. -/
theorem emitted_of_pending (hinv : s.Inv hasRaw) (hov : s.ov = true) : Emitted hasRaw s.res := by
  obtain ⟨_, hnone⟩ | hem := hinv.res_shape
  · simp [hov] at hnone
  · exact hem

/-- A Take hands over the pending RES (R173). -/
theorem takeResult (hinv : s.Inv hasRaw) (hov : s.ov = true) (hheld : s.held = none) :
    (takeResult s).Inv hasRaw where
  pending_at_boundary hpend := by simp at hpend
  fmt_wired := hinv.fmt_wired
  res_shape := .inr (hinv.emitted_of_pending hov)
  taken_shape r hr := by
    obtain hr | hr := List.mem_append.mp hr
    · exact hinv.taken_shape r hr
    · rw [List.mem_singleton.mp hr]
      exact hinv.emitted_of_pending hov
  held_waits hh := by simp [hheld] at hh

theorem cfgStore (hinv : s.Inv hasRaw) (a : CfgAddr) (v : Byte) : (s.cfgStore hasRaw a v).Inv hasRaw where
  pending_at_boundary := by simpa using hinv.pending_at_boundary
  fmt_wired hraw := by simp [hraw, hinv.fmt_wired hraw]
  res_shape := by simpa using hinv.res_shape
  taken_shape := by simpa using hinv.taken_shape
  held_waits := by simpa using hinv.held_waits

theorem cfgReadOut (hinv : s.Inv hasRaw) (a : CfgAddr) : (cfgReadOut hasRaw a s).Inv hasRaw where
  pending_at_boundary := hinv.pending_at_boundary
  fmt_wired := hinv.fmt_wired
  res_shape := hinv.res_shape
  taken_shape := hinv.taken_shape
  held_waits := hinv.held_waits

theorem resetBlock (hinv : s.Inv hasRaw) : s.resetBlock.Inv hasRaw where
  pending_at_boundary _ := rfl
  fmt_wired _ := rfl
  res_shape := .inl ⟨rfl, rfl⟩
  taken_shape := hinv.taken_shape
  held_waits hh := by simp at hh

end State.Inv

/-- An enabled event keeps the invariant; a Take asks that no byte is held back, or the byte would be held with
nothing pending. -/
theorem applyEvent_keeps_inv {hasRaw : Bool} {e : Event} {s t : State} (hinv : s.Inv hasRaw)
    (hen : enabled e s = true) (htake : e = .take → s.held = none) (h : applyEvent hasRaw e s = .next t) :
    t.Inv hasRaw := by
  rcases applyEvent_cases h with ⟨d, eos, -, -, rfl⟩ | ⟨d, -, hcnt, rfl⟩ | ⟨d, rfl, -, rfl⟩ | ⟨rfl, rfl⟩ |
    ⟨a, v, -, rfl⟩ | ⟨a, -, rfl⟩ | ⟨-, rfl⟩
  · exact hinv.emit_closeFrame (emitted_decodeFrame hasRaw s _)
  · exact (hinv.writeFB d).emit_closeFrame (emitted_malformedLen hasRaw hcnt)
  · exact hinv.storeByte d (by simpa [enabled] using hen)
  · exact hinv.takeResult hen (htake rfl)
  · exact hinv.cfgStore a v
  · exact hinv.cfgReadOut a
  · exact hinv.resetBlock

/-- No event holds a byte back: that is the clock edge's doing (R52). -/
theorem applyEvent_held {hasRaw : Bool} {e : Event} {s t : State} (hheld : s.held = none)
    (h : applyEvent hasRaw e s = .next t) : t.held = none := by
  rcases applyEvent_cases h with ⟨d, eos, -, -, rfl⟩ | ⟨d, -, -, rfl⟩ | ⟨d, -, -, rfl⟩ | ⟨-, rfl⟩ |
    ⟨a, v, -, rfl⟩ | ⟨a, -, rfl⟩ | ⟨-, rfl⟩ <;> simp [hheld]

/-- Events that occur in a row keep the invariant, if no Take meets a byte held back. -/
theorem Occurs.keeps_inv {hasRaw : Bool} {es : List Event} {s t : State} (hrun : Occurs hasRaw es s t)
    (hinv : s.Inv hasRaw) (htake : .take ∈ es → s.held = none) : t.Inv hasRaw := by
  induction hrun with
  | nil => exact hinv
  | cons hen hstep _ ih =>
    refine ih (applyEvent_keeps_inv hinv hen (fun he => htake (he ▸ .head _)) hstep) fun hmem => ?_
    exact applyEvent_held (htake (.tail _ hmem)) hstep

/-- A byte is held back at an edge only while a result is pending that the edge does not take (R52). -/
theorem pending_of_heldAfterEdge {p : Pins} {s : State} (h : (heldAfterEdge p s).isSome = true) :
    s.ov = true ∧ p.outReady = false := by
  simp only [heldAfterEdge, Option.isSome_ite, Bool.and_eq_true, Bool.not_eq_true'] at h
  simpa [inReady] using h.2

/-- An edge takes the result exactly when one is pending, the host is ready and there is no reset (R53, R240). -/
theorem take_mem_edgeEvents {p : Pins} {s : State} :
    .take ∈ edgeEvents p s ↔ p.rst = false ∧ s.ov = true ∧ p.outReady = true := by
  cases hrst : p.rst with
  | true => simp [edgeEvents, hrst]
  | false => simp [edgeEvents, hrst, outValid]

/-- An edge at which the host takes the result holds no byte back (R52). -/
theorem heldAfterEdge_of_take {p : Pins} {s : State} (h : .take ∈ edgeEvents p s) : heldAfterEdge p s = none := by
  obtain ⟨-, -, hready⟩ := take_mem_edgeEvents.mp h
  by_contra hsome
  obtain ⟨-, hbusy⟩ := pending_of_heldAfterEdge (Option.isSome_iff_ne_none.mpr hsome)
  simp [hready] at hbusy

/-- A transaction-level event leaves a byte held back only if it was held back before. -/
theorem held_of_heldAfterEvent {e : Event} {s : State} (h : (heldAfterEvent e s).isSome = true) :
    s.held.isSome = true := by
  cases e with
  | cfgRead a => exact h
  | byteIn d eos => cases h
  | take => cases h
  | cfgWrite a v => cases h
  | reset => cases h

/-- Every step keeps the invariant: idle and held steps change nothing, an event and the events of an edge occur
where they are enabled. -/
theorem stepWith_keeps_inv {hasRaw : Bool} {s t : State} (hinv : s.Inv hasRaw)
    (h : stepWith hasRaw s = .next t) : t.Inv hasRaw := by
  rcases stepWith_cases h with ⟨-, rfl⟩ | ⟨e, rest, -, -, rfl⟩ | ⟨e, rest, -, hen, hstep⟩ |
    ⟨p, rest, -, -, hedge⟩
  · exact hinv
  · exact hinv
  · have hstart := hinv.withHost rest (held := heldAfterEvent e s)
      fun hh => hinv.held_waits (held_of_heldAfterEvent hh)
    refine applyEvent_keeps_inv hstart ?_ (fun he => by rw [he]; rfl) hstep
    cases e <;> exact hen
  · have hstart := hinv.withHost rest (held := heldAfterEdge p s) fun hh => (pending_of_heldAfterEdge hh).1
    have hrun := occurs_edgeEvents (s := s) (by rfl) hedge
    exact hrun.keeps_inv hstart heldAfterEdge_of_take

end Sys2Proof.Machine

namespace Sys2Proof.Proofs

open Sys2Proof Sys2Proof.Machine

/-- Settles O47: the step lemma for every HAS_RAW_MODE, taken at the opaque parameter too. -/
theorem everyStepKeepsTheInvariant : Obligations.EveryStepKeepsTheInvariant :=
  ⟨fun _ _ _ => stepWith_keeps_inv, fun _ _ => stepWith_keeps_inv⟩

end Sys2Proof.Proofs
end

section
/-! PROOFS. Stale bytes (R23): two states that differ only in them stay so under every operation, event and step. -/

namespace Sys2Proof.Machine

namespace SameButStale

variable {s t : State}

theorem cnt_eq (h : SameButStale s t) : t.cnt = s.cnt := by rw [h.rest]
theorem res_eq (h : SameButStale s t) : t.res = s.res := by rw [h.rest]
theorem inputs_eq (h : SameButStale s t) : t.inputs = s.inputs := by rw [h.rest]
theorem taken_eq (h : SameButStale s t) : t.taken = s.taken := by rw [h.rest]
theorem reads_eq (h : SameButStale s t) : t.reads = s.reads := by rw [h.rest]

/-- With CNT = 7 no byte of the buffer is stale. -/
theorem eq_of_full (h : SameButStale s t) (hcnt : s.cnt = 7#3) : s = t := by
  have hfb : t.fb = s.fb := by
    ext i hi
    rw [h.fresh i hi (by rw [hcnt]; exact hi)]
  rw [h.rest, hfb]

/-- The host's side is no part of the frame buffer. -/
theorem withHost (h : SameButStale s t) (inputs : List Stimulus) (held : Option (Byte × Bool)) :
    SameButStale { s with inputs := inputs, held := held } { t with inputs := inputs, held := held } where
  rest := by rw [h.rest]
  fresh := h.fresh

/-- The byte stored at CNT is the one that stops being stale (R170). -/
theorem storeByte (h : SameButStale s t) (d : Byte) (hcnt : s.cnt ≠ 7#3) :
    SameButStale (storeByte d s) (storeByte d t) where
  rest := by rw [h.rest]; rfl
  fresh i hi hlt := by
    rw [storeByte_cnt, cnt_advance_toNat hcnt] at hlt
    have hget : (s.writeFB d).fb[i] = (t.writeFB d).fb[i] := by
      rw [State.writeFB_get, State.writeFB_get, h.cnt_eq]
      split
      · rfl
      · exact h.fresh i hi (by omega)
    exact hget

/-- A run's end makes every byte of the buffer stale (R172). -/
theorem endRun (h : SameButStale s t) (d : Byte) : SameButStale (endRun d s) (endRun d t) where
  rest := by rw [h.rest]; rfl
  fresh i hi hlt := by simp at hlt

theorem takeResult (h : SameButStale s t) : SameButStale (takeResult s) (takeResult t) where
  rest := by rw [h.rest]; rfl
  fresh := h.fresh

theorem cfgStore (h : SameButStale s t) (hasRaw : Bool) (a : CfgAddr) (v : Byte) :
    SameButStale (s.cfgStore hasRaw a v) (t.cfgStore hasRaw a v) where
  rest := by
    rw [h.rest]
    unfold State.cfgStore
    split <;> rfl
  fresh := by simpa using h.fresh

/-- No register of the configuration space shows the frame buffer (R25 to R29). -/
theorem cfgReadOut (h : SameButStale s t) (hasRaw : Bool) (a : CfgAddr) :
    SameButStale (cfgReadOut hasRaw a s) (cfgReadOut hasRaw a t) where
  rest := by rw [h.rest]; rfl
  fresh := h.fresh

theorem resetBlock (h : SameButStale s t) : SameButStale s.resetBlock t.resetBlock where
  rest := by rw [h.rest]; rfl
  fresh _ _ _ := rfl

/-- An event takes both states to states that differ only in stale bytes. -/
theorem applyEvent (h : SameButStale s t) {hasRaw : Bool} {e : Event} {s' : State}
    (hs : applyEvent hasRaw e s = .next s') : ∃ t', applyEvent hasRaw e t = .next t' ∧ SameButStale s' t' := by
  rcases applyEvent_cases hs with ⟨d, eos, -, hcnt, -⟩ | ⟨d, rfl, hcnt, rfl⟩ | ⟨d, rfl, hcnt, rfl⟩ |
    ⟨rfl, rfl⟩ | ⟨a, v, rfl, rfl⟩ | ⟨a, rfl, rfl⟩ | ⟨rfl, rfl⟩
  · obtain rfl := h.eq_of_full hcnt
    exact ⟨s', hs, rfl, fun _ _ _ => rfl⟩
  · exact ⟨_, byteIn_endRun (h.cnt_eq ▸ hcnt), h.endRun d⟩
  · exact ⟨_, byteIn_store (h.cnt_eq ▸ hcnt), h.storeByte d hcnt⟩
  · exact ⟨_, rfl, h.takeResult⟩
  · exact ⟨_, rfl, h.cfgStore hasRaw a v⟩
  · exact ⟨_, rfl, h.cfgReadOut hasRaw a⟩
  · exact ⟨_, rfl, h.resetBlock⟩

theorem applyEvents {hasRaw : Bool} (es : List Event) {s t s' : State} (h : SameButStale s t)
    (hs : applyEvents hasRaw es s = .next s') :
    ∃ t', applyEvents hasRaw es t = .next t' ∧ SameButStale s' t' := by
  induction es generalizing s t with
  | nil =>
    cases hs
    exact ⟨t, rfl, h⟩
  | cons e es ih =>
    obtain ⟨u, hu, hes⟩ := applyEvents_cons.mp hs
    obtain ⟨v, hv, huv⟩ := h.applyEvent hu
    obtain ⟨t', ht', hst'⟩ := ih huv hes
    exact ⟨t', applyEvents_cons.mpr ⟨v, hv, ht'⟩, hst'⟩

/-- What an event asks and whether it leaves a byte held back does not depend on the frame buffer (R52, R176). -/
theorem event_eq (h : SameButStale s t) (e : Event) :
    enabled e t = enabled e s ∧ heldAfterEvent e t = heldAfterEvent e s := by
  rw [h.rest]
  cases e <;> exact ⟨rfl, rfl⟩

/-- What an edge selects and holds back does not depend on the frame buffer (R52, R240). -/
theorem edge_eq (h : SameButStale s t) (p : Pins) :
    changesHeldByte p t = changesHeldByte p s ∧ edgeEvents p t = edgeEvents p s ∧
      heldAfterEdge p t = heldAfterEdge p s := by
  rw [h.rest]
  exact ⟨rfl, rfl, rfl⟩

/-- A step takes both states to states that differ only in stale bytes. -/
theorem stepWith (h : SameButStale s t) {hasRaw : Bool} {s' : State} (hs : stepWith hasRaw s = .next s') :
    ∃ t', stepWith hasRaw t = .next t' ∧ SameButStale s' t' := by
  rcases stepWith_cases hs with ⟨hin, rfl⟩ | ⟨e, rest, hin, hen, rfl⟩ | ⟨e, rest, hin, hen, hstep⟩ |
    ⟨p, rest, hin, hkeep, hedge⟩ <;> rw [← h.inputs_eq] at hin
  · exact ⟨t, stepWith_idle hin, h⟩
  · obtain ⟨hen', -⟩ := h.event_eq e
    exact ⟨t, stepWith_of_disabled hin (hen'.trans hen), h⟩
  · obtain ⟨hen', hheld⟩ := h.event_eq e
    rw [stepWith_of_enabled hin (hen'.trans hen), hheld]
    exact (h.withHost rest _).applyEvent hstep
  · obtain ⟨hkeep', hevents, hheld⟩ := h.edge_eq p
    rw [stepWith_of_edge hin (hkeep'.trans hkeep), hevents, hheld]
    exact (h.withHost rest _).applyEvents _ hedge

end SameButStale

end Sys2Proof.Machine

namespace Sys2Proof.Proofs

open Sys2Proof Sys2Proof.Machine

/-- Settles O48: the relation is kept by the step, and RES, the results handed over and the bytes read are outside
the frame buffer. -/
theorem staleBytesNeverLeak : Obligations.StaleBytesNeverLeak := by
  intro hasRaw s t s' hst hs
  obtain ⟨t', ht, hst'⟩ := hst.stepWith hs
  exact ⟨t', ht, hst', hst'.res_eq.symm, hst'.taken_eq.symm, hst'.reads_eq.symm⟩

end Sys2Proof.Proofs
end

section
/-! PROOFS. The result bus (R30, R31): a bus value and the fields it shows determine each other. -/

namespace Sys2Proof.Machine

/-- A bus value is its fields, one after the other (R30). -/
theorem bus_eq_fields (w : Bus) :
    w.extractLsb' 112 32 ++ w.extractLsb' 96 16 ++ w.extractLsb' 88 8 ++ w.extractLsb' 80 8 ++
      w.extractLsb' 48 32 ++ w.extractLsb' 40 8 ++ w.extractLsb' 32 8 ++ w.extractLsb' 24 8 ++
      w.extractLsb' 16 8 ++ w.extractLsb' 15 1 ++ w.extractLsb' 14 1 ++ w.extractLsb' 10 4 ++
      w.extractLsb' 6 4 ++ w.extractLsb' 5 1 ++ w.extractLsb' 1 4 ++ w.extractLsb' 0 1 = w := by
  iterate 15 rw [BitVec.extractLsb'_append_extractLsb'_eq_extractLsb' (by omega)]
  exact BitVec.extractLsb'_eq_self

/-- Two bus values that show the same fields are equal. -/
theorem BusShows.unique {w w' : Bus} {status mode flag : BitVec 1} {len kind label : BitVec 4}
    {id b1 b2 b3 va vb : Byte} {ts vt : Word} {vw : Half}
    (h : BusShows w status len mode kind label flag id b1 b2 b3 ts va vb vw vt)
    (h' : BusShows w' status len mode kind label flag id b1 b2 b3 ts va vb vw vt) : w = w' := by
  have hw := bus_eq_fields w
  have hw' := bus_eq_fields w'
  rw [h.status_at, h.len_at, h.mode_at, h.kind_at, h.label_at, h.flag_at, h.reserved_zero, h.id_at, h.b1_at,
    h.b2_at, h.b3_at, h.ts_at, h.va_at, h.vb_at, h.vw_at, h.vt_at] at hw
  rw [h'.status_at, h'.len_at, h'.mode_at, h'.kind_at, h'.label_at, h'.flag_at, h'.reserved_zero, h'.id_at,
    h'.b1_at, h'.b2_at, h'.b3_at, h'.ts_at, h'.va_at, h'.vb_at, h'.vw_at, h'.vt_at] at hw'
  exact hw.symm.trans hw'

/-- A one-bit field is its bit. -/
theorem extractLsb'_one {n : Nat} (w : BitVec n) (i : Nat) : w.extractLsb' i 1 = BitVec.ofBool (w.getLsbD i) := by
  apply BitVec.eq_of_getLsbD_eq
  intro j hj
  obtain rfl : j = 0 := by omega
  simp

theorem getLsbD_of_extractLsb'_one {n : Nat} {w : BitVec n} {i : Nat} {b : Bool}
    (h : w.extractLsb' i 1 = BitVec.ofBool b) : w.getLsbD i = b := by
  have hbit := congrArg (BitVec.getLsbD · 0) ((extractLsb'_one w i).symm.trans h)
  simpa using hbit

/-- A code that stands for a kind is that kind's code (R88). -/
theorem Kind.code_of_ofCode {c : BitVec 4} {k : Kind} (h : Kind.ofCode c = some k) : k.code = c := by
  revert c
  cases k <;> decide

/-- A code that stands for a label is that label's code (R89). -/
theorem Label.code_of_ofCode {c : BitVec 4} {l : Label} (h : Label.ofCode c = some l) : l.code = c := by
  revert c
  cases l <;> decide

/-- The fields of a record on a bus value. -/
def Res.ShownOn (r : Res) (w : Bus) : Prop :=
  BusShows w (BitVec.ofBool r.status) r.len (BitVec.ofBool r.mode) r.kind.code r.label.code
    (BitVec.ofBool r.flag) r.id r.b1 r.b2 r.b3 r.ts r.va r.vb r.vw r.vt

/-- The packing of a record shows it. -/
theorem Res.shownOn_pack (r : Res) : r.ShownOn r.pack := r.pack_shows

/-- A bus value unpacks to the record whose fields it shows. -/
theorem Res.ShownOn.unpack_eq {r : Res} {w : Bus} (h : r.ShownOn w) : Res.unpack w = some r := by
  have hreserved : w.getLsbD 15 = false := getLsbD_of_extractLsb'_one h.reserved_zero
  have hkind : Kind.ofCode (w.extractLsb' 6 4) = some r.kind := by rw [h.kind_at, Kind.ofCode_code]
  have hlabel : Label.ofCode (w.extractLsb' 10 4) = some r.label := by rw [h.label_at, Label.ofCode_code]
  simp only [Res.unpack, hreserved, hkind, hlabel, getLsbD_of_extractLsb'_one h.status_at,
    getLsbD_of_extractLsb'_one h.mode_at, getLsbD_of_extractLsb'_one h.flag_at, h.len_at, h.id_at, h.b1_at,
    h.b2_at, h.b3_at, h.ts_at, h.va_at, h.vb_at, h.vw_at, h.vt_at]

/-- A bus value shows the fields of the record it unpacks to. -/
theorem Res.shownOn_of_unpack {r : Res} {w : Bus} (h : Res.unpack w = some r) : r.ShownOn w := by
  unfold Res.unpack at h
  split at h
  · rename_i k l hreserved hkind hlabel
    cases h
    exact
      { status_at := extractLsb'_one w 0, len_at := rfl, mode_at := extractLsb'_one w 5
        kind_at := (Kind.code_of_ofCode hkind).symm, label_at := (Label.code_of_ofCode hlabel).symm
        flag_at := extractLsb'_one w 14, reserved_zero := by rw [extractLsb'_one, hreserved]; rfl
        id_at := rfl, b1_at := rfl, b2_at := rfl, b3_at := rfl, ts_at := rfl, va_at := rfl, vb_at := rfl
        vw_at := rfl, vt_at := rfl }
  · cases h

/-- Every result an emit produces shows a LEN of 1 to 8 (R30, R31). -/
theorem Emitted.len_ne_zero {hasRaw : Bool} {r : Res} (h : Emitted hasRaw r) : r.len ≠ 0#4 := by
  obtain ⟨fmt, f, -, rfl⟩ | ⟨len, hpos, -, rfl⟩ := h
  · obtain ⟨-, hlen, -⟩ := resultOf_base (decode fmt f)
    rw [decodeFrame, hlen]
    decide
  · rintro hzero
    have hlen : len = 0#4 := hzero
    simp [hlen] at hpos

/-- The all-zero RES on the bus (R31). -/
theorem Res.pack_zero : Res.zero.pack = 0#144 := by decide

end Sys2Proof.Machine

namespace Sys2Proof.Proofs

open Sys2Proof Sys2Proof.Machine

/-- Settles O9: a packed record shows its own fields, and a bus value shows the fields of what it unpacks to. -/
theorem busAndRecordAgree : Obligations.BusAndRecordAgree := by
  refine ⟨fun r => r.shownOn_pack.unpack_eq, fun w r h => ?_⟩
  exact r.shownOn_pack.unique (Res.shownOn_of_unpack h)

end Sys2Proof.Proofs
end

section
/-! PROOFS. What one event does to CNT, FB and RES (R21, R22, R31). -/

namespace Sys2Proof.Machine

/-- A byte is accepted only with nothing pending (R52). -/
theorem ov_of_byteIn {d : Byte} {eos : Bool} {s : State} (hen : enabled (.byteIn d eos) s = true) :
    s.ov = false := by
  simpa [enabled] using hen

/-- An entry of the frame buffer that a write changes is the one at CNT, and holds the byte (R22). -/
theorem State.writeFB_changed {s : State} {d : Byte} {i : Nat} {hi : i < 7}
    (hne : (s.writeFB d).fb[i] ≠ s.fb[i]) : s.cnt.toNat = i ∧ (s.writeFB d).fb[i] = d := by
  rw [State.writeFB_get] at hne ⊢
  by_cases hat : s.cnt.toNat = i
  · exact ⟨hat, if_pos hat⟩
  · exact absurd (if_neg hat) hne

end Sys2Proof.Machine

namespace Sys2Proof.Proofs

open Sys2Proof Sys2Proof.Machine

/-- Settles O33, event by event: a stored byte advances CNT, an emit and Reset bring it to 0, and nothing else
moves it. -/
theorem cntAdvancesByOneOrReturnsToZero : Obligations.CntAdvancesByOneOrReturnsToZero := by
  intro hasRaw s t e rest hin h
  obtain ⟨-, rfl⟩ | ⟨hen, hev⟩ := stepWith_event hin h
  · exact .inl rfl
  rcases applyEvent_cases hev with ⟨d, eos, rfl, -, rfl⟩ | ⟨d, rfl, -, rfl⟩ | ⟨d, rfl, hcnt, rfl⟩ | ⟨rfl, rfl⟩ |
    ⟨a, v, rfl, rfl⟩ | ⟨a, rfl, rfl⟩ | ⟨rfl, rfl⟩
  · exact .inr (.inr ⟨rfl, .inl ⟨d, eos, rfl, ov_of_byteIn hen, rfl⟩⟩)
  · exact .inr (.inr ⟨rfl, .inl ⟨d, true, rfl, ov_of_byteIn hen, rfl⟩⟩)
  · exact .inr (.inl ⟨cnt_advance_toNat hcnt, ov_of_byteIn hen, d, rfl⟩)
  · exact .inl rfl
  · exact .inl (State.cfgStore_cnt ..)
  · exact .inl rfl
  · exact .inr (.inr ⟨rfl, .inr rfl⟩)

/-- Settles O34, event by event: the bytes that do not complete a frame write the entry at CNT, Reset writes them
all, and nothing else writes any. -/
theorem frameBufferIsWrittenOnlyAtCnt : Obligations.FrameBufferIsWrittenOnlyAtCnt := by
  intro hasRaw s t e rest hin h i hi hne
  obtain ⟨-, rfl⟩ | ⟨hen, hev⟩ := stepWith_event hin h
  · exact absurd rfl hne
  rcases applyEvent_cases hev with ⟨d, eos, rfl, -, rfl⟩ | ⟨d, rfl, -, rfl⟩ | ⟨d, rfl, -, rfl⟩ | ⟨rfl, rfl⟩ |
    ⟨a, v, rfl, rfl⟩ | ⟨a, rfl, rfl⟩ | ⟨rfl, rfl⟩
  · exact absurd rfl hne
  · exact .inr ⟨d, true, rfl, ov_of_byteIn hen, State.writeFB_changed hne⟩
  · exact .inr ⟨d, false, rfl, ov_of_byteIn hen, State.writeFB_changed hne⟩
  · exact absurd rfl hne
  · exact absurd (by simp) hne
  · exact absurd rfl hne
  · exact .inl ⟨rfl, by simp⟩

/-- R31's first clause, event by event: RES changes only by an emit or Reset. -/
theorem res_kept_or_emitted_or_reset {hasRaw : Bool} {s t : State} {e : Event} {rest : List Stimulus}
    (hin : s.inputs = .event e :: rest) (h : stepWith hasRaw s = .next t) :
    t.res = s.res ∨ (∃ d eos, e = .byteIn d eos ∧ s.ov = false ∧ t.ov = true) ∨ e = .reset := by
  obtain ⟨-, rfl⟩ | ⟨hen, hev⟩ := stepWith_event hin h
  · exact .inl rfl
  rcases applyEvent_cases hev with ⟨d, eos, rfl, -, rfl⟩ | ⟨d, rfl, -, rfl⟩ | ⟨d, rfl, -, rfl⟩ | ⟨rfl, rfl⟩ |
    ⟨a, v, rfl, rfl⟩ | ⟨a, rfl, rfl⟩ | ⟨rfl, rfl⟩
  · exact .inr (.inl ⟨d, eos, rfl, ov_of_byteIn hen, rfl⟩)
  · exact .inr (.inl ⟨d, true, rfl, ov_of_byteIn hen, rfl⟩)
  · exact .inl rfl
  · exact .inl rfl
  · exact .inl (State.cfgStore_res ..)
  · exact .inl rfl
  · exact .inr (.inr rfl)

/-- Settles O35: RES under one event, Take and Reset as the enabled events they are, and LEN of an emitted
result. -/
theorem resKeepsItsValueUntilEmitOrReset : Obligations.ResKeepsItsValueUntilEmitOrReset := by
  refine ⟨fun hasRaw s t e rest hin h => ⟨res_kept_or_emitted_or_reset hin h, ?_, ?_⟩, ?_, Res.pack_zero⟩
  · rintro rfl hov
    rw [stepWith_of_enabled hin hov] at h
    cases h
    exact ⟨rfl, rfl⟩
  · rintro rfl
    rw [stepWith_of_enabled hin rfl] at h
    cases h
    exact Res.pack_zero
  · intro hasRaw r hr
    rw [r.pack_shows.len_at]
    exact hr.len_ne_zero

end Sys2Proof.Proofs
end

section
/-! PROOFS. The configuration space: CTRL without the raw layout (R27), and STATUS (R24, R28). -/

namespace Sys2Proof.Machine

/-- A frame decodes under the layout it is read in (R86, R92). -/
theorem decode_layout (fmt : Bool) (f : Frame) : (decode fmt f).layout = fmt := by
  cases fmt with
  | true => rfl
  | false =>
    simp only [decode, Bool.false_eq_true, if_false]
    split_ifs <;> rfl

/-- RAW is the kind of the raw layout and of no other (R88, R147). -/
theorem resultOf_kind_eq_raw (i : Instr) : (resultOf i).kind = .raw ↔ i.layout = true := by
  cases i <;> simp [resultOf, resultProtocolVersion, resultJoypad, resultSendByteMaster, resultSendByteSlave,
    resultTimestamp, resultStatus, resultUnknown, resultRaw, Instr.layout]

/-- MODE of a decoded result is its layout (R112). -/
theorem decodeFrame_mode (fmt : Bool) (f : Frame) : (decodeFrame fmt f).mode = fmt := by
  obtain ⟨-, -, hmode⟩ := resultOf_base (decode fmt f)
  exact hmode.trans (decode_layout fmt f)

/-- Without the raw layout a write at the configuration port changes nothing (R27, R29). -/
theorem State.cfgStore_hardwired (s : State) (a : CfgAddr) (v : Byte) : s.cfgStore false a v = s := by
  simp [State.cfgStore]

end Sys2Proof.Machine

namespace Sys2Proof.Proofs

open Sys2Proof Sys2Proof.Machine

/-- Settles O28: the layout in force is 0, so every completing byte decodes under it. -/
theorem fmtIsHardwiredWithoutRawMode : Obligations.FmtIsHardwiredWithoutRawMode := by
  intro s
  refine ⟨by simp [State.cfgByte], s.layout_hardwired, fun v rest hin => ?_, fun d eos rest hin hov hcnt => ?_⟩
  · rw [stepWith_of_enabled hin rfl, applyEvent, State.cfgStore_hardwired]
    rfl
  · have hstep := (stepWith_byteIn (hasRaw := false) hov hin).trans (byteIn_complete hcnt)
    rw [completeFrame_eq, State.layout_hardwired] at hstep
    refine ⟨_, hstep, rfl, decodeFrame_mode false _, fun hraw => ?_⟩
    have hlayout := (resultOf_kind_eq_raw _).mp hraw
    rw [decode_layout] at hlayout
    cases hlayout

/-- The fields of STATUS (R28). -/
theorem status_fields (ov : Bool) (cnt : BitVec 3) :
    ((BitVec.ofBool ov ++ cnt).setWidth 8).extractLsb' 0 3 = cnt ∧
      ((BitVec.ofBool ov ++ cnt).setWidth 8).getLsbD 3 = ov ∧
      ((BitVec.ofBool ov ++ cnt).setWidth 8).extractLsb' 4 4 = 0#4 := by
  revert ov cnt
  decide

/-- With CNT = 0 whenever OV is set, STATUS shows one of CNT and 8, never their sum (R24). -/
theorem status_le_eight {ov : Bool} {cnt : BitVec 3} (h : ov = true → cnt = 0#3) :
    ((BitVec.ofBool ov ++ cnt).setWidth 8).toNat ≤ 8 := by
  revert ov cnt
  decide

/-- Settles O30: the fields of STATUS in every state, and its bound where a pending result stands at CNT 0. -/
theorem statusReadsOnlyLegalValues : Obligations.StatusReadsOnlyLegalValues := by
  intro hasRaw s
  rw [State.cfgByte_status]
  obtain ⟨hcnt, hov, hzero⟩ := status_fields s.ov s.cnt
  exact ⟨hcnt, hov, hzero, fun hinv => status_le_eight hinv.pending_at_boundary⟩

end Sys2Proof.Proofs
end

section
/-! PROOFS. A pending result stands until the host has been handed it (R63, R203). -/

namespace Sys2Proof.Machine

/-- Whether an event can occur depends on OV alone, not on what the host sends or holds (R176). -/
theorem enabled_withHost (e : Event) (s : State) (inputs : List Stimulus) (held : Option (Byte × Bool)) :
    enabled e { s with inputs := inputs, held := held } = enabled e s := by
  cases e <;> rfl

/-- The host is handed results by a Take and by nothing else (R173). -/
theorem applyEvent_taken {hasRaw : Bool} {e : Event} {s t : State} (hne : e ≠ .take)
    (h : applyEvent hasRaw e s = .next t) : t.taken = s.taken := by
  rcases applyEvent_cases h with ⟨d, eos, -, -, rfl⟩ | ⟨d, -, -, rfl⟩ | ⟨d, -, -, rfl⟩ | ⟨htake, -⟩ |
    ⟨a, v, -, rfl⟩ | ⟨a, -, rfl⟩ | ⟨-, rfl⟩
  · rfl
  · rfl
  · rfl
  · exact absurd htake hne
  · exact State.cfgStore_taken ..
  · rfl
  · rfl

/-- An event that occurs while a result is pending takes it, resets the block, or leaves it pending: no byte is
accepted (R52, R173 to R175). -/
theorem applyEvent_of_pending {hasRaw : Bool} {e : Event} {s t : State} (hov : s.ov = true)
    (hen : enabled e s = true) (hreset : e ≠ .reset) (h : applyEvent hasRaw e s = .next t) :
    (e = .take ∧ t = takeResult s) ∨ (t.ov = true ∧ t.res = s.res ∧ t.taken = s.taken) := by
  cases e with
  | byteIn d eos => exact absurd (hov.symm.trans (ov_of_byteIn hen)) nofun
  | take => cases h; exact .inl ⟨rfl, rfl⟩
  | cfgWrite a v => cases h; exact .inr (by simp [hov])
  | cfgRead a => cases h; exact .inr ⟨hov, rfl, rfl⟩
  | reset => exact absurd rfl hreset

/-- Events in a row without a Take hand the host nothing. -/
theorem Occurs.taken_eq {hasRaw : Bool} {es : List Event} {s t : State} (hrun : Occurs hasRaw es s t)
    (htake : .take ∉ es) : t.taken = s.taken := by
  induction hrun with
  | nil => rfl
  | cons _ hstep _ ih =>
    obtain ⟨hne, hrest⟩ := List.ne_and_not_mem_of_not_mem_cons htake
    exact (ih hrest).trans (applyEvent_taken hne.symm hstep)

/-- Events in a row, none of them Reset and none twice, leave a pending result pending or hand it over, and hand
over no other (R63). -/
theorem Occurs.pending_stands_or_taken {hasRaw : Bool} {es : List Event} {s t : State}
    (hrun : Occurs hasRaw es s t) (hov : s.ov = true) (hreset : .reset ∉ es) (hnodup : es.Nodup) :
    (t.ov = true ∧ t.res = s.res ∧ t.taken = s.taken) ∨ t.taken = s.taken ++ [s.res] := by
  induction hrun with
  | nil => exact .inl ⟨hov, rfl, rfl⟩
  | cons hen hstep hrest ih =>
    obtain ⟨hne, hreset'⟩ := List.ne_and_not_mem_of_not_mem_cons hreset
    obtain ⟨honce, hnodup'⟩ := List.nodup_cons.mp hnodup
    rcases applyEvent_of_pending hov hen hne.symm hstep with ⟨rfl, rfl⟩ | ⟨hov', hres, htaken⟩
    · exact .inr (hrest.taken_eq honce)
    · simpa only [hres, htaken] using ih hov' hreset' hnodup'

/-- An edge resets the block exactly when `rst` is high (R51, R240). -/
theorem reset_mem_edgeEvents {p : Pins} {s : State} : .reset ∈ edgeEvents p s ↔ p.rst = true := by
  cases hrst : p.rst with
  | true => simp [edgeEvents, hrst]
  | false => simp [edgeEvents, hrst]

/-- An edge selects each event at most once (R240). -/
theorem nodup_edgeEvents (p : Pins) (s : State) : (edgeEvents p s).Nodup := by
  unfold edgeEvents
  repeat' split
  all_goals simp

end Sys2Proof.Machine

namespace Sys2Proof.Proofs

open Sys2Proof Sys2Proof.Machine

/-- Settles O50: an idle or held step leaves the result pending, and an event or the events of an edge occur where
they are enabled, at most one of them a Take. -/
theorem noPendingResultIsLost : Obligations.NoPendingResultIsLost := by
  intro hasRaw s t hov h hevent hedge
  rcases stepWith_cases h with ⟨-, rfl⟩ | ⟨e, rest, -, -, rfl⟩ | ⟨e, rest, hin, hen, hstep⟩ |
    ⟨p, rest, hin, -, hstep⟩
  · exact .inl ⟨hov, rfl, rfl⟩
  · exact .inl ⟨hov, rfl, rfl⟩
  · have hreset : e ≠ .reset := fun he => hevent rest (he ▸ hin)
    have hrun := Occurs.cons ((enabled_withHost ..).trans hen) hstep (.nil t)
    exact hrun.pending_stands_or_taken hov (by simpa using hreset.symm) (List.nodup_singleton e)
  · have hrst := hedge p rest hin
    have hrun := occurs_edgeEvents (s := s) (by rfl) hstep
    exact hrun.pending_stands_or_taken hov (by simp [reset_mem_edgeEvents, hrst]) (nodup_edgeEvents p s)

end Sys2Proof.Proofs
end

section
/-! PROOFS. The configuration port: what a write changes and what a read shows (R25 to R29, R61). -/

namespace Sys2Proof.Machine

/-- A write at the configuration port is a write of FMT alone (R26, R174). -/
theorem State.cfgStore_eq (hasRaw : Bool) (s : State) (a : CfgAddr) (v : Byte) :
    s.cfgStore hasRaw a v = { s with fmt := if a = 0#2 && hasRaw then v.getLsbD 0 else s.fmt } := by
  unfold State.cfgStore
  split <;> rfl

/-- A write at a reserved address or at STATUS changes nothing (R28, R29). -/
theorem State.cfgStore_of_ne {a : CfgAddr} (ha : a ≠ 0#2) (hasRaw : Bool) (s : State) (v : Byte) :
    s.cfgStore hasRaw a v = s := by
  simp [State.cfgStore_eq, ha]

/-- The same write again changes nothing (R61). -/
theorem State.cfgStore_idem (hasRaw : Bool) (s : State) (a : CfgAddr) (v : Byte) :
    (s.cfgStore hasRaw a v).cfgStore hasRaw a v = s.cfgStore hasRaw a v := by
  simp only [State.cfgStore_eq]
  split <;> rfl

/-- What the configuration port shows is a function of FMT, OV and CNT (R26 to R29). -/
theorem State.cfgByte_congr {s t : State} (hasRaw : Bool) (hfmt : s.fmt = t.fmt) (hov : s.ov = t.ov)
    (hcnt : s.cnt = t.cnt) (a : CfgAddr) : s.cfgByte hasRaw a = t.cfgByte hasRaw a := by
  simp only [State.cfgByte, State.layout, hfmt, hov, hcnt]

/-- FMT shows at CTRL and nowhere else (R28, R29). -/
theorem State.cfgByte_cfgStore_of_ne {b : CfgAddr} (hb : b ≠ 0#2) (hasRaw : Bool) (s : State) (a : CfgAddr)
    (v : Byte) : (s.cfgStore hasRaw a v).cfgByte hasRaw b = s.cfgByte hasRaw b := by
  simp only [State.cfgByte, hb, if_false, State.cfgStore_ov, State.cfgStore_cnt]

end Sys2Proof.Machine

namespace Sys2Proof.Proofs

open Sys2Proof Sys2Proof.Machine

/-- Settles O29: a write sets FMT to the same value again, a read leaves FMT, OV and CNT, and FMT shows at CTRL
alone. -/
theorem configurationAccessesAreIdempotent : Obligations.ConfigurationAccessesAreIdempotent := fun hasRaw s a v =>
  ⟨s.cfgStore_idem hasRaw a v, fun ha => s.cfgStore_of_ne ha hasRaw v,
    fun b => State.cfgByte_congr hasRaw (cfgReadOut_fmt hasRaw b s) (cfgReadOut_ov hasRaw b s)
      (cfgReadOut_cnt hasRaw b s) a,
    fun _ hb => State.cfgByte_cfgStore_of_ne hb hasRaw s a v⟩

end Sys2Proof.Proofs
end

section
/-! PROOFS. A byte held back at a clock edge (R52, R66; log entry 6). -/

namespace Sys2Proof.Machine

/-- The check an edge makes is the host's duty of R66. -/
theorem changesHeldByte_eq_false {p : Pins} {s : State} : changesHeldByte p s = false ↔ keepsHeldByte p s := by
  unfold changesHeldByte keepsHeldByte
  cases hheld : s.held with
  | none => simp
  | some b =>
    obtain ⟨d, eos⟩ := b
    cases hrst : p.rst with
    | true => simp
    | false => cases hin : p.inValid <;> simp

/-- An edge at which the host changes the byte held back is refused (I14). -/
theorem stepWith_of_changed_byte {hasRaw : Bool} {s : State} {p : Pins} {rest : List Stimulus}
    (hin : s.inputs = .edge p :: rest) (hchange : ¬ keepsHeldByte p s) :
    stepWith hasRaw s = .refused .heldByteChanged := by
  have hcheck : changesHeldByte p { s with inputs := rest } = true :=
    Bool.ne_false_iff.mp (mt changesHeldByte_eq_false.mp hchange)
  simp [stepWith, hin, edgeStep, hcheck]

/-- With a result pending that the host does not take, the block is not ready for a byte (R52). -/
theorem not_inReady {p : Pins} {s : State} (hov : s.ov = true) (hbusy : p.outReady = false) :
    inReady p s = false := by
  simp [inReady, hov, hbusy]

/-- An edge with neither reset, Take nor write selects no event while the block is not ready (R240). -/
theorem edgeEvents_of_not_ready {p : Pins} {s : State} (hrst : p.rst = false) (hbusy : p.outReady = false)
    (hready : inReady p s = false) (hwe : p.cfgWe = false) : edgeEvents p s = [] := by
  simp [edgeEvents, hrst, hbusy, hready, hwe]

/-- A byte presented while the block is not ready is held back (R52, R66). -/
theorem heldAfterEdge_of_not_ready {p : Pins} {s : State} (hrst : p.rst = false) (hvalid : p.inValid = true)
    (hready : inReady p s = false) : heldAfterEdge p s = some (p.inData, p.inEos) := by
  simp [heldAfterEdge, hrst, hvalid, hready]

end Sys2Proof.Machine

namespace Sys2Proof.Proofs

open Sys2Proof Sys2Proof.Machine

/-- Settles O40: the edge selects no event and records the byte; an edge with another byte fails the check. -/
theorem byteIsHeldWhileAResultIsPending : Obligations.ByteIsHeldWhileAResultIsPending := by
  constructor
  · intro hasRaw p s rest hin hkeep hov hrst hbusy hvalid hwe
    have hready := not_inReady hov hbusy
    rw [stepWith_of_edge hin (changesHeldByte_eq_false.mpr hkeep), edgeEvents_of_not_ready hrst hbusy hready hwe,
      heldAfterEdge_of_not_ready hrst hvalid hready, applyEvents]
  · intro hasRaw p s rest d eos hin hheld hrst hvalid hchange
    refine stepWith_of_changed_byte hin fun hkeep => ?_
    obtain ⟨hdata, heos⟩ := hkeep d eos hheld hrst hvalid
    exact hchange.elim (· hdata) (· heos)

end Sys2Proof.Proofs
end

section
/-! PROOFS. The decoder identifier by identifier (R86, R87), and the two round trips between instructions and frames
(R80, R91, R92). -/

namespace Sys2Proof

/-- The frame of raw fields, byte by byte (R80). -/
theorem frameOf_eq_bytes {id b1 b2 b3 b4 b5 b6 b7 : Byte} {ts : Word} (h : wordBytes ts = [b4, b5, b6, b7]) :
    frameOf id b1 b2 b3 ts = #v[id, b1, b2, b3, b4, b5, b6, b7] := by
  simp only [wordBytes, List.cons.injEq, and_true] at h
  obtain ⟨rfl, rfl, rfl, rfl⟩ := h
  rfl

/-- A frame is the frame with its raw fields: the fields of R80 cover every byte. -/
theorem frameOf_fields_eq (f : Frame) : frameOf f[0] f[1] f[2] f[3] (be32 f[4] f[5] f[6] f[7]) = f := by
  rw [frameOf_eq_bytes (wordBytes_be32 ..)]
  ext i hi
  match i, hi with
  | 0, _ | 1, _ | 2, _ | 3, _ | 4, _ | 5, _ | 6, _ | 7, _ => rfl

section

variable {f : Frame}

/-- The decoder under FMT 0, an equation per identifier of the opcode map (R86). -/
theorem decode_protocolVersion (h : f[0] = 0x01#8) :
    decode false f = .protocolVersion f[1] f[2] f[3] (be32 f[4] f[5] f[6] f[7]) := by simp [decode, h]

theorem decode_joypad (h : f[0] = 0x65#8) :
    decode false f = .joypad f[1] f[2] f[3] (be32 f[4] f[5] f[6] f[7]) := by simp [decode, h]

theorem decode_sendByteMaster (h : f[0] = 0x68#8) :
    decode false f = .sendByteMaster f[1] f[2] f[3] (be32 f[4] f[5] f[6] f[7]) := by simp [decode, h]

theorem decode_sendByteSlave (h : f[0] = 0x69#8) :
    decode false f = .sendByteSlave f[1] f[2] f[3] (be32 f[4] f[5] f[6] f[7]) := by simp [decode, h]

theorem decode_timestamp (h : f[0] = 0x6A#8) :
    decode false f = .timestamp f[1] f[2] f[3] (be32 f[4] f[5] f[6] f[7]) := by simp [decode, h]

theorem decode_status (h : f[0] = 0x6C#8) :
    decode false f = .status f[1] f[2] f[3] (be32 f[4] f[5] f[6] f[7]) := by simp [decode, h]

end

/-- An identifier is one of the opcode map's six or none of them (R86, R87). -/
theorem id_cases (id : Byte) :
    id = 0x01#8 ∨ id = 0x65#8 ∨ id = 0x68#8 ∨ id = 0x69#8 ∨ id = 0x6A#8 ∨ id = 0x6C#8 ∨ id ∉ knownIds := by
  simp only [knownIds, List.mem_cons, List.not_mem_nil, or_false]
  tauto

theorem wellFormed_unknown {id b1 b2 b3 : Byte} {ts : Word} :
    (Instr.unknown id b1 b2 b3 ts).wellFormed = true ↔ id ∉ knownIds := by
  simp [Instr.wellFormed]

/-- The frame of a well-formed instruction decodes to it, under the layout of its row. -/
theorem decode_encode {i : Instr} (hwf : i.wellFormed = true) : decode i.layout (encode i) = i := by
  cases i with
  | protocolVersion b1 b2 b3 ts =>
    exact (decode_protocolVersion rfl).trans (congrArg (Instr.protocolVersion b1 b2 b3) (be32_wordBytes ts))
  | joypad b1 b2 b3 ts =>
    exact (decode_joypad rfl).trans (congrArg (Instr.joypad b1 b2 b3) (be32_wordBytes ts))
  | sendByteMaster b1 b2 b3 ts =>
    exact (decode_sendByteMaster rfl).trans (congrArg (Instr.sendByteMaster b1 b2 b3) (be32_wordBytes ts))
  | sendByteSlave b1 b2 b3 ts =>
    exact (decode_sendByteSlave rfl).trans (congrArg (Instr.sendByteSlave b1 b2 b3) (be32_wordBytes ts))
  | timestamp b1 b2 b3 ts =>
    exact (decode_timestamp rfl).trans (congrArg (Instr.timestamp b1 b2 b3) (be32_wordBytes ts))
  | status b1 b2 b3 ts =>
    exact (decode_status rfl).trans (congrArg (Instr.status b1 b2 b3) (be32_wordBytes ts))
  | unknown id b1 b2 b3 ts =>
    have hid : (encode (.unknown id b1 b2 b3 ts))[0] ∉ knownIds := wellFormed_unknown.mp hwf
    exact (decode_unknown _ hid).trans (congrArg (Instr.unknown id b1 b2 b3) (be32_wordBytes ts))
  | raw id b1 b2 b3 ts => exact congrArg (Instr.raw id b1 b2 b3) (be32_wordBytes ts)

/-- Every frame is the frame of a well-formed instruction of each layout: no encoding is illegal (R91). -/
theorem exists_encode_eq (fmt : Bool) (f : Frame) :
    ∃ i : Instr, i.wellFormed = true ∧ i.layout = fmt ∧ encode i = f := by
  have hf := frameOf_fields_eq f
  cases fmt with
  | true => exact ⟨.raw _ _ _ _ _, rfl, rfl, hf⟩
  | false =>
    rcases id_cases f[0] with h | h | h | h | h | h | h
    · exact ⟨.protocolVersion _ _ _ _, rfl, rfl, h ▸ hf⟩
    · exact ⟨.joypad _ _ _ _, rfl, rfl, h ▸ hf⟩
    · exact ⟨.sendByteMaster _ _ _ _, rfl, rfl, h ▸ hf⟩
    · exact ⟨.sendByteSlave _ _ _ _, rfl, rfl, h ▸ hf⟩
    · exact ⟨.timestamp _ _ _ _, rfl, rfl, h ▸ hf⟩
    · exact ⟨.status _ _ _ _, rfl, rfl, h ▸ hf⟩
    · exact ⟨.unknown _ _ _ _ _, wellFormed_unknown.mpr h, rfl, hf⟩

/-- The instruction a frame decodes to is the one it encodes, so the decoder is the encoder's inverse. -/
theorem decode_inverse (fmt : Bool) (f : Frame) :
    (decode fmt f).wellFormed = true ∧ (decode fmt f).layout = fmt ∧ encode (decode fmt f) = f := by
  obtain ⟨i, hwf, rfl, rfl⟩ := exists_encode_eq fmt f
  rw [decode_encode hwf]
  exact ⟨hwf, rfl, rfl⟩

end Sys2Proof

namespace Sys2Proof.Proofs

open Sys2Proof Sys2Proof.Machine

/-- Settles O1: a buffer of 8 bytes goes to the decoder, which gives back what was encoded, row by row. -/
theorem encodeThenDecodeIsIdentity : Obligations.EncodeThenDecodeIsIdentity := by
  intro i hwf
  rw [decodeBytes_frame, decode_encode hwf]

/-- Settles O2: every frame is the frame of a well-formed instruction of the layout, which O1's round trip gives
back. -/
theorem everyFrameDecodesAndReencodes : Obligations.EveryFrameDecodesAndReencodes := decode_inverse

end Sys2Proof.Proofs
end

section
/-! PROOFS. The interpreted values of a frame: the bits of W they come from (R56, R83), the slots each kind writes
(R90), and the views that overlap (R84). -/

namespace Sys2Proof

/-- Byte i of the frame of W is W[63-8i : 56-8i] (R56). -/
@[simp] theorem frameOfWord_getElem (w : FrameWord) (i : Nat) (h : i < 8) :
    (frameOfWord w)[i] = w.extractLsb' (56 - 8 * i) 8 := by
  simp [frameOfWord]

/-- Bytes 2 and 3 of a frame are W[47:32] (R83). -/
theorem be16_frameOfWord (w : FrameWord) :
    be16 (frameOfWord w)[2] (frameOfWord w)[3] = w.extractLsb' 32 16 := by
  rw [frameOfWord_getElem, frameOfWord_getElem, be16]
  exact BitVec.extractLsb'_append_extractLsb'_eq_extractLsb' (by omega)

/-- TS is W[31:0] (R80). -/
theorem be32_frameOfWord (w : FrameWord) :
    be32 (frameOfWord w)[4] (frameOfWord w)[5] (frameOfWord w)[6] (frameOfWord w)[7] = w.extractLsb' 0 32 := by
  simp only [frameOfWord_getElem, be32]
  iterate 3 rw [BitVec.extractLsb'_append_extractLsb'_eq_extractLsb' (by omega)]

end Sys2Proof

namespace Sys2Proof.Machine

/-- button_num is one bit at weight 4 (R83). -/
theorem buttonNumber_eq (b1 : Byte) : buttonNumber b1 = if pushedFlag b1 then 0x04#8 else 0x00#8 :=
  BitVec.and_twoPow b1 2

/-- button_num is 4 times pushed (R84). -/
theorem buttonNumber_toNat (b1 : Byte) : (buttonNumber b1).toNat = 4 * (pushedFlag b1).toNat := by
  rw [buttonNumber_eq]
  cases pushedFlag b1 <;> rfl

/-- button_num is pushed, zero-extended, at bit 2 (R83). -/
theorem buttonNumber_eq_shiftLeft (b1 : Byte) :
    buttonNumber b1 = (BitVec.ofBool (pushedFlag b1)).setWidth 8 <<< 2 := by
  rw [buttonNumber_eq]
  cases pushedFlag b1 <;> rfl

/-- The label codes the flags select (R89). -/
theorem pushedLabel_code (b : Bool) : (pushedLabel b).code = if b then 1#4 else 2#4 := by cases b <;> rfl
theorem speedLabel_code (b : Bool) : (speedLabel b).code = if b then 3#4 else 4#4 := by cases b <;> rfl
theorem syncLabel_code (b : Bool) : (syncLabel b).code = if b then 6#4 else 5#4 := by cases b <;> rfl
theorem pausedLabel_code (b : Bool) : (pausedLabel b).code = if b then 7#4 else 8#4 := by cases b <;> rfl

section

variable {f : Frame}

/-- The result of a frame under FMT 0, an equation per arm of the decoder (R86, R110). -/
theorem decodeFrame_protocolVersion (h : f[0] = 0x01#8) :
    decodeFrame false f = resultProtocolVersion f[1] f[2] f[3] (be32 f[4] f[5] f[6] f[7]) :=
  congrArg resultOf (decode_protocolVersion h)

theorem decodeFrame_joypad (h : f[0] = 0x65#8) :
    decodeFrame false f = resultJoypad f[1] f[2] f[3] (be32 f[4] f[5] f[6] f[7]) :=
  congrArg resultOf (decode_joypad h)

theorem decodeFrame_sendByteMaster (h : f[0] = 0x68#8) :
    decodeFrame false f = resultSendByteMaster f[1] f[2] f[3] (be32 f[4] f[5] f[6] f[7]) :=
  congrArg resultOf (decode_sendByteMaster h)

theorem decodeFrame_sendByteSlave (h : f[0] = 0x69#8) :
    decodeFrame false f = resultSendByteSlave f[1] f[2] f[3] (be32 f[4] f[5] f[6] f[7]) :=
  congrArg resultOf (decode_sendByteSlave h)

theorem decodeFrame_timestamp (h : f[0] = 0x6A#8) :
    decodeFrame false f = resultTimestamp f[1] f[2] f[3] (be32 f[4] f[5] f[6] f[7]) :=
  congrArg resultOf (decode_timestamp h)

theorem decodeFrame_status (h : f[0] = 0x6C#8) :
    decodeFrame false f = resultStatus f[1] f[2] f[3] (be32 f[4] f[5] f[6] f[7]) :=
  congrArg resultOf (decode_status h)

theorem decodeFrame_unknown (h : f[0] ∉ knownIds) :
    decodeFrame false f = resultUnknown f[0] f[1] f[2] f[3] (be32 f[4] f[5] f[6] f[7]) :=
  congrArg resultOf (decode_unknown f h)

end

end Sys2Proof.Machine

namespace Sys2Proof.Proofs

open Sys2Proof Sys2Proof.Machine

/-- Settles O5: the result of each identifier, at the bytes that the frame of W has. -/
theorem interpretedValuesAtTheirBitsOfW : Obligations.InterpretedValuesAtTheirBitsOfW := by
  intro w
  have hid : (frameOfWord w)[0] = w.extractLsb' 56 8 := frameOfWord_getElem w 0 (by omega)
  have hb1 : (frameOfWord w)[1] = w.extractLsb' 48 8 := frameOfWord_getElem w 1 (by omega)
  have hb2 : (frameOfWord w)[2] = w.extractLsb' 40 8 := frameOfWord_getElem w 2 (by omega)
  have hbit (start i : Nat) (hi : i < 8) : (w.extractLsb' start 8).getLsbD i = w.getLsbD (start + i) := by simp [hi]
  dsimp only
  rw [← hid]
  refine ⟨fun h => ?_, fun h => ?_, fun h => ?_, fun h => ?_, fun h => ?_, fun h => ?_, fun h => ?_⟩
  · rw [decodeFrame_protocolVersion h]
    exact ⟨hb1, hb2⟩
  · rw [decodeFrame_joypad h, hb1, extractLsb'_one]
    have hpushed : pushedFlag (w.extractLsb' 48 8) = w.getLsbD 50 := hbit 48 2 (by omega)
    exact ⟨rfl, hpushed ▸ buttonNumber_eq_shiftLeft _, hpushed⟩
  · rw [decodeFrame_sendByteMaster h, hb1, hb2, be32_frameOfWord]
    exact ⟨rfl, rfl, hbit 40 1 (by omega), rfl⟩
  · rw [decodeFrame_sendByteSlave h]
    exact ⟨hb1, hb2⟩
  · rw [decodeFrame_timestamp h, hb1, be32_frameOfWord]
    refine ⟨be16_frameOfWord w, rfl, fun hsync => ?_⟩
    rw [hsync]
    rfl
  · rw [decodeFrame_status h, hb1]
    exact hbit 48 0 (by omega)
  · rw [decodeFrame_unknown h]
    rfl

/-- Settles O7: row by row, with the label's code read off its flag. -/
theorem slotsEachKindWrites : Obligations.SlotsEachKindWrites := by
  refine ⟨fun f => ?_, fun f => rfl, fun len => rfl⟩
  dsimp only
  by_cases h1 : f[0] = 0x01#8
  · rw [if_pos h1, decodeFrame_protocolVersion h1]; rfl
  rw [if_neg h1]
  by_cases h2 : f[0] = 0x65#8
  · rw [if_pos h2, decodeFrame_joypad h2, ← pushedLabel_code]; rfl
  rw [if_neg h2]
  by_cases h3 : f[0] = 0x68#8
  · rw [if_pos h3, decodeFrame_sendByteMaster h3, ← speedLabel_code]; rfl
  rw [if_neg h3]
  by_cases h4 : f[0] = 0x69#8
  · rw [if_pos h4, decodeFrame_sendByteSlave h4]; rfl
  rw [if_neg h4]
  by_cases h5 : f[0] = 0x6A#8
  · rw [if_pos h5, decodeFrame_timestamp h5]
    by_cases hsync : f[1] = 0#8
    · rw [if_pos hsync, if_pos hsync, hsync]; rfl
    · have hflag : syncFlag f[1] = false := beq_false_of_ne hsync
      rw [if_neg hsync, if_neg hsync, resultTimestamp, hflag, beq_false_of_ne hsync]; rfl
  rw [if_neg h5]
  by_cases h6 : f[0] = 0x6C#8
  · rw [if_pos h6, decodeFrame_status h6, ← pausedLabel_code]; rfl
  rw [if_neg h6]
  have hid : f[0] ∉ knownIds := by simp [knownIds, *]
  rw [decodeFrame_unknown hid]; rfl

/-- Settles O10: each view is a slot of the kind's own result. -/
theorem overlappingViewsAreBothProduced : Obligations.OverlappingViewsAreBothProduced := by
  refine fun f => ⟨fun h => ?_, fun h => ?_, fun h => ?_⟩
  · rw [decodeFrame_joypad h]
    exact ⟨rfl, rfl, rfl, buttonNumber_toNat f[1]⟩
  · rw [decodeFrame_timestamp h]
    exact ⟨rfl, rfl, rfl⟩
  · rw [decodeFrame_sendByteMaster h]
    exact ⟨rfl, rfl, rfl⟩

end Sys2Proof.Proofs
end

section
/-! PROOFS. The identifiers of the opcode map (R86, R87), written words (R80), and the mnemonic forms (R93). -/

namespace Sys2Proof

/-- The identifiers outside the opcode map, as R87 lists them. -/
theorem not_mem_knownIds_iff (id : Byte) :
    id ∉ knownIds ↔ id.toNat = 0x00 ∨ (0x02 ≤ id.toNat ∧ id.toNat ≤ 0x64) ∨ id.toNat = 0x66 ∨ id.toNat = 0x67 ∨
      id.toNat = 0x6B ∨ 0x6D ≤ id.toNat := by
  simp only [knownIds, List.mem_cons, List.not_mem_nil, or_false, ← BitVec.toNat_inj, BitVec.toNat_ofNat]
  omega

/-- A test that a whole interval passes keeps every number of it. -/
theorem length_filter_range' {p : Nat → Bool} {a n : Nat} (h : ∀ k, a ≤ k → k < a + n → p k = true) :
    ((List.range' a n).filter p).length = n := by
  have hall : (List.range' a n).filter p = List.range' a n :=
    List.filter_eq_self.mpr fun k hk => h k (List.mem_range'_1.mp hk).1 (List.mem_range'_1.mp hk).2
  rw [hall, List.length_range']

/-- R87's list holds 250 identifiers: its two long intervals have 99 and 147, and 4 more lie around them. -/
theorem length_unknown_ids :
    ((List.range 256).filter fun n =>
      n = 0x00 ∨ (0x02 ≤ n ∧ n ≤ 0x64) ∨ n = 0x66 ∨ n = 0x67 ∨ n = 0x6B ∨ 0x6D ≤ n).length = 250 := by
  have hsplit : List.range 256 =
      List.range' 0 2 ++ (List.range' 0x02 99 ++ (List.range' 0x65 8 ++ List.range' 0x6D 147)) := by
    have hhigh : List.range' 0x65 8 ++ List.range' 0x6D 147 = List.range' 0x65 155 := List.range'_append_1
    have hmid : List.range' 0x02 99 ++ List.range' 0x65 155 = List.range' 0x02 254 := List.range'_append_1
    have hlow : List.range' 0 2 ++ List.range' 0x02 254 = List.range' 0 256 := List.range'_append_1
    rw [hhigh, hmid, hlow, List.range_eq_range']
  simp only [hsplit, List.filter_append, List.length_append]
  rw [length_filter_range' (a := 0x02), length_filter_range' (a := 0x6D)]
  · decide
  all_goals
    intro k hlo hhi
    rw [decide_eq_true_eq]
    omega

/-- A frame decodes to Unknown exactly when its identifier is outside the opcode map (R87). -/
theorem decode_eq_unknown_iff (f : Frame) :
    decode false f = .unknown f[0] f[1] f[2] f[3] (be32 f[4] f[5] f[6] f[7]) ↔ f[0] ∉ knownIds := by
  refine ⟨fun h => ?_, decode_unknown f⟩
  obtain ⟨hwf, -, -⟩ := decode_inverse false f
  rw [h] at hwf
  exact wellFormed_unknown.mp hwf

/-- A table word whose bytes are the frame of an instruction of the layout after reset decodes to it. -/
theorem decodeTableWord_of_encode {w : Nat} {i : Instr} (hwf : i.wellFormed = true) (hlayout : i.layout = false)
    (hw : frameOfWord (BitVec.ofNat 64 (w % 2 ^ 64)) = encode i) : decodeTableWord 64 w = some i := by
  have hdec := decode_encode hwf
  rw [hlayout] at hdec
  rw [decodeTableWord, if_pos le_rfl, hw, decodeBytes_frame, hdec]
  rfl

end Sys2Proof

namespace Sys2Proof.Machine

/-- The identifier a kind names, for the six kinds that name one (R86). -/
def Kind.id? : Kind → Option Byte
  | .protocolVersion => some 0x01#8
  | .joypad => some 0x65#8
  | .sendByteMaster => some 0x68#8
  | .sendByteSlave => some 0x69#8
  | .timestamp => some 0x6A#8
  | .status => some 0x6C#8
  | .none | .unknown | .raw => Option.none

/-- The kind a frame decodes to names the frame's identifier, where the opcode map has it (R86, R87). -/
theorem decodeFrame_kind_id? (f : Frame) :
    (decodeFrame false f).kind.id? = if f[0] ∈ knownIds then some f[0] else none := by
  rcases id_cases f[0] with h | h | h | h | h | h | h
  · rw [decodeFrame_protocolVersion h, h]; rfl
  · rw [decodeFrame_joypad h, h]; rfl
  · rw [decodeFrame_sendByteMaster h, h]; rfl
  · rw [decodeFrame_sendByteSlave h, h]; rfl
  · rw [decodeFrame_timestamp h, h]; rfl
  · rw [decodeFrame_status h, h]; rfl
  · rw [decodeFrame_unknown h, if_neg h]; rfl

/-- Frames of one kind, one of them with an identifier of the opcode map, have the same identifier. -/
theorem id_eq_of_kind_eq {f g : Frame} (hf : f[0] ∈ knownIds)
    (hkind : (decodeFrame false f).kind = (decodeFrame false g).kind) : f[0] = g[0] := by
  have hid := congrArg Kind.id? hkind
  rw [decodeFrame_kind_id?, decodeFrame_kind_id?, if_pos hf] at hid
  split at hid
  · exact Option.some.inj hid
  · cases hid

end Sys2Proof.Machine

namespace Sys2Proof.Proofs

open Sys2Proof Sys2Proof.Machine

/-- Settles O3: Unknown is the identifiers outside the opcode map, and a kind names its identifier. -/
theorem unknownIdsAreTheListedOnes : Obligations.UnknownIdsAreTheListedOnes :=
  ⟨fun f => (decode_eq_unknown_iff f).trans (not_mem_knownIds_iff f[0]), length_unknown_ids, by decide,
    fun _ _ hne hknown hkind => hne (id_eq_of_kind_eq hknown hkind)⟩

/-- Settles O4: each word is, byte for byte, the frame of its instruction. -/
theorem sampleWordsDecode : Obligations.SampleWordsDecode :=
  ⟨decodeTableWord_of_encode rfl rfl (by decide), decodeTableWord_of_encode rfl rfl (by decide),
    decodeTableWord_of_encode rfl rfl (by decide), decodeTableWord_of_encode rfl rfl (by decide),
    decodeTableWord_of_encode rfl rfl (by decide), decodeTableWord_of_encode rfl rfl (by decide),
    decodeTableWord_of_encode rfl rfl (by decide), by decide⟩

/-- Settles O45: each form expands to the frame of its instruction, which decodes to it; a framecount is written as
its two bytes. -/
theorem mnemonicFormsDecode : Obligations.MnemonicFormsDecode := by
  have hbytes (n : Half) : n.extractLsb' 8 8 ++ n.extractLsb' 0 8 = n := by
    rw [BitVec.extractLsb'_append_extractLsb'_eq_extractLsb' (by omega)]
    exact BitVec.extractLsb'_eq_self
  refine ⟨fun maj min => decode_encode (i := .protocolVersion maj min 0#8 0#32) rfl,
    fun p => decode_encode (i := .joypad p 0#8 0#8 0#32) rfl,
    fun v c t => decode_encode (i := .sendByteMaster v c 0#8 t) rfl,
    fun v c => decode_encode (i := .sendByteSlave v c 0#8 0#32) rfl,
    fun n t => ⟨_, _, hbytes n, decode_encode (i := .timestamp 0#8 _ _ t) rfl⟩, fun r n hwf => ?_,
    fun b => decode_encode (i := .status b 0#8 0#8 0#32) rfl⟩
  have hdec : decode false (FrameForm.tack r n).expand = _ := decode_encode (i := .timestamp r _ _ 0#32) rfl
  refine ⟨_, _, hbytes n, hdec, ?_⟩
  have hresponse : syncFlag r = false := by simpa [FrameForm.wellFormed, syncFlag] using hwf
  rw [decodeFrame, hdec, resultOf, resultTimestamp, hresponse]
  rfl

end Sys2Proof.Proofs
end

section
/-! PROOFS. The decode function: the base fields of every decoded result (R112), and the buffers that decode (R111). -/

namespace Sys2Proof.Machine

/-- The result of an instruction holds its raw fields as they stand (R112). -/
theorem resultOf_rawFields (i : Instr) :
    ((resultOf i).id, (resultOf i).b1, (resultOf i).b2, (resultOf i).b3, (resultOf i).ts) = Laws.rawFields i := by
  cases i <;> rfl

/-- The raw fields of an instruction are the bytes of its frame (R80). -/
theorem rawFields_eq_encode (i : Instr) :
    Laws.rawFields i = ((encode i)[0], (encode i)[1], (encode i)[2], (encode i)[3],
      be32 (encode i)[4] (encode i)[5] (encode i)[6] (encode i)[7]) := by
  cases i <;> exact (Laws.frameOf_fields ..).symm

/-- The raw fields of a decoded result are the bytes of its frame, under both layouts (R112). -/
theorem decodeFrame_rawFields (fmt : Bool) (f : Frame) :
    (decodeFrame fmt f).id = f[0] ∧ (decodeFrame fmt f).b1 = f[1] ∧ (decodeFrame fmt f).b2 = f[2] ∧
      (decodeFrame fmt f).b3 = f[3] ∧ (decodeFrame fmt f).ts = be32 f[4] f[5] f[6] f[7] := by
  obtain ⟨-, -, hencode⟩ := decode_inverse fmt f
  have hraw := (resultOf_rawFields (decode fmt f)).trans (rawFields_eq_encode (decode fmt f))
  rw [hencode] at hraw
  simpa only [decodeFrame, Prod.mk.injEq] using hraw

/-- A buffer of any other length than 8 is Malformed of that length (R111). -/
theorem decodeBuf_of_length_ne (fmt : Bool) {buf : List Byte} (h : buf.length ≠ 8) :
    decodeBuf fmt buf = .malformed buf.length := by
  rw [decodeBuf, decodeBytes_short fmt buf h]

/-- The bytes of a frame decode to the frame's result (R111). -/
theorem decodeBuf_frame (fmt : Bool) (f : Frame) : decodeBuf fmt f.toList = .decoded (decodeFrame fmt f) := by
  rw [decodeBuf, decodeBytes_frame]
  rfl

end Sys2Proof.Machine

namespace Sys2Proof.Proofs

open Sys2Proof Sys2Proof.Machine

/-- Settles O6: the bus shows the result's own fields, and those are the base fields of the frame. -/
theorem decodedResultsShareTheirBaseFields : Obligations.DecodedResultsShareTheirBaseFields := by
  intro fmt f
  have hbus := (decodeFrame fmt f).pack_shows
  obtain ⟨hstatus, hlen, -⟩ := resultOf_base (decode fmt f)
  obtain ⟨hid, hb1, hb2, hb3, hts⟩ := decodeFrame_rawFields fmt f
  exact ⟨hbus.status_at.trans (congrArg BitVec.ofBool hstatus), hbus.len_at.trans hlen,
    hbus.mode_at.trans (congrArg BitVec.ofBool (decodeFrame_mode fmt f)), hbus.id_at.trans hid, hbus.b1_at.trans hb1,
    hbus.b2_at.trans hb2, hbus.b3_at.trans hb3, hbus.ts_at.trans hts⟩

/-- Settles O8: the two answers of the decoder on a buffer. -/
theorem bufferDecodesOnlyAtEightBytes : Obligations.BufferDecodesOnlyAtEightBytes :=
  ⟨fun fmt _ hlength => decodeBuf_of_length_ne fmt hlength, decodeBuf_frame⟩

end Sys2Proof.Proofs
end

section
/-! PROOFS. Results as the host reads them: the field list (R117), the summary (R119) and the reference rendering (R121)
of every kind, and what a Malformed result has of them (R122). -/

namespace Sys2Proof.Machine

/-- A value read off a frame under FMT 0 is the opcode map's table of it, when each row gives its entry (R86, R87). -/
theorem eq_some_table_of_rows {α : Type} {x : Option α} {id : Byte}
    {version joypad master slave timestamp status unknown : α}
    (hversion : id = 0x01#8 → x = some version) (hjoypad : id = 0x65#8 → x = some joypad)
    (hmaster : id = 0x68#8 → x = some master) (hslave : id = 0x69#8 → x = some slave)
    (htimestamp : id = 0x6A#8 → x = some timestamp) (hstatus : id = 0x6C#8 → x = some status)
    (hunknown : id ∉ knownIds → x = some unknown) :
    x = some (if id = 0x01#8 then version else if id = 0x65#8 then joypad else if id = 0x68#8 then master
      else if id = 0x69#8 then slave else if id = 0x6A#8 then timestamp else if id = 0x6C#8 then status
      else unknown) := by
  split_ifs with h1 h2 h3 h4 h5 h6
  · exact hversion h1
  · exact hjoypad h2
  · exact hmaster h3
  · exact hslave h4
  · exact htimestamp h5
  · exact hstatus h6
  · exact hunknown (by simp [knownIds, *])

/-- A Timestamp result with B1 not 0 has no timestamp and the response label (R144). -/
theorem resultTimestamp_response {b1 : Byte} (h : b1 ≠ 0#8) (b2 b3 : Byte) (ts : Word) :
    resultTimestamp b1 b2 b3 ts =
      { baseResult false 0x6A#8 b1 b2 b3 ts with
        kind := .timestamp, vw := be16 b2 b3, label := .activeTransferResponse } := by
  have hflag : syncFlag b1 = false := beq_false_of_ne h
  rw [resultTimestamp, hflag]
  rfl

/-- With B1 not 0 a Timestamp result shows no timestamp in its field list and in its summary (R117, R119). -/
theorem fieldList_timestamp_response {r : Res} (hdecoded : r.isDecoded = true) (hkind : r.kind = .timestamp)
    (hb1 : r.b1 ≠ 0#8) :
    fieldList r = some
      [⟨"command", [r.id], some (.kind .timestamp)⟩, ⟨"byte1", [r.b1], none⟩, ⟨"byte2", [r.b2], none⟩,
       ⟨"byte3", [r.b3], none⟩, ⟨"timestamp", wordBytes r.ts, none⟩,
       ⟨"transfer_mode", [r.b1], some (.label r.label)⟩, ⟨"framecount", [r.b2, r.b3], some (.half r.vw)⟩] := by
  simp [fieldList, hdecoded, hkind, hb1, baseFields, kindFields, Res.rawPart, Res.valuePart]

theorem summary_timestamp_response {r : Res} (hdecoded : r.isDecoded = true) (hkind : r.kind = .timestamp)
    (hb1 : r.b1 ≠ 0#8) : summary r = some [.mode r.label, .framecount r.vw] := by
  simp [summary, hdecoded, hkind, hb1]

/-- The texts of the labels the flags select (R89). -/
theorem pushedLabel_text (b : Bool) : (pushedLabel b).text = if b then "pushed" else "released" := by
  cases b <;> rfl
theorem speedLabel_text (b : Bool) : (speedLabel b).text = if b then "high speed" else "double speed" := by
  cases b <;> rfl

/-- The line of a Status result is one of two texts (R121, R145). -/
theorem status_line (b : Bool) : "Status: " ++ (pausedLabel b).text =
    if b then "Status: Emulator is paused" else "Status: Emulator is running" := by
  cases b <;> rfl

/-- The line of a Timestamp result in its two branches (R121, R144). -/
theorem render_timestamp_sync (b2 b3 : Byte) (ts : Word) :
    render (resultTimestamp 0#8 b2 b3 ts) =
      some ("Timestamp: synchronization, framecount " ++ Nat.repr (be16 b2 b3).toNat ++ ", timestamp " ++
        Nat.repr ts.toNat) := by
  have hline : render (resultTimestamp 0#8 b2 b3 ts) =
      some ("Timestamp: " ++ "synchronization" ++ ", framecount " ++ Nat.repr (be16 b2 b3).toNat ++
        (", timestamp " ++ Nat.repr ts.toNat)) := rfl
  rw [hline, ← String.append_assoc]
  rfl

theorem render_timestamp_response {b1 : Byte} (h : b1 ≠ 0#8) (b2 b3 : Byte) (ts : Word) :
    render (resultTimestamp b1 b2 b3 ts) =
      some ("Timestamp: active transfer response, framecount " ++ Nat.repr (be16 b2 b3).toNat) := by
  have hline : render (resultTimestamp b1 b2 b3 ts) =
      some ("Timestamp: " ++ "active transfer response" ++ ", framecount " ++ Nat.repr (be16 b2 b3).toNat ++
        "") := by
    rw [resultTimestamp_response h]
    rfl
  rw [hline, String.append_empty]
  rfl

/-- A Malformed result is no DecodedFrame: it has a line and nothing else (R121, R122). -/
theorem fieldList_malformed (len : BitVec 4) : fieldList (malformedResult len) = none := rfl
theorem summary_malformed (len : BitVec 4) : summary (malformedResult len) = none := rfl
theorem render_malformed (len : BitVec 4) :
    render (malformedResult len) = some ("Malformed frame (" ++ Nat.repr len.toNat ++ " bytes)") := rfl

end Sys2Proof.Machine

namespace Sys2Proof.Proofs

open Sys2Proof Sys2Proof.Machine

/-- Settles O41: row by row of the opcode map, a Timestamp row by its branch; a frame's bytes 4 to 7 are those of
TS. -/
theorem fieldListOfEveryKind : Obligations.FieldListOfEveryKind := by
  refine ⟨fun f => ?_, fun f => ?_, fieldList_malformed⟩
  · dsimp only
    rw [← wordBytes_be32 f[4] f[5] f[6] f[7]]
    refine eq_some_table_of_rows (fun h => ?_) (fun h => ?_) (fun h => ?_) (fun h => ?_) (fun h => ?_) (fun h => ?_)
      (fun h => ?_)
    · rw [decodeFrame_protocolVersion h, h]; rfl
    · rw [decodeFrame_joypad h, h]; rfl
    · rw [decodeFrame_sendByteMaster h, h]; rfl
    · rw [decodeFrame_sendByteSlave h, h]; rfl
    · rw [decodeFrame_timestamp h, h]
      by_cases hsync : f[1] = 0#8
      · rw [if_pos hsync, hsync]; rfl
      · rw [if_neg hsync, resultTimestamp_response hsync, fieldList_timestamp_response rfl rfl hsync]; rfl
    · rw [decodeFrame_status h, h]; rfl
    · rw [decodeFrame_unknown h]; rfl
  · rw [← wordBytes_be32 f[4] f[5] f[6] f[7]]; rfl

/-- Settles O42: row by row of the opcode map, a Timestamp row by its branch. -/
theorem summaryOfEveryKind : Obligations.SummaryOfEveryKind := by
  refine ⟨fun f => ?_, fun f => rfl⟩
  refine eq_some_table_of_rows (fun h => ?_) (fun h => ?_) (fun h => ?_) (fun h => ?_) (fun h => ?_) (fun h => ?_)
    (fun h => ?_)
  · rw [decodeFrame_protocolVersion h]; rfl
  · rw [decodeFrame_joypad h]; rfl
  · rw [decodeFrame_sendByteMaster h]; rfl
  · rw [decodeFrame_sendByteSlave h]; rfl
  · rw [decodeFrame_timestamp h]
    by_cases hsync : f[1] = 0#8
    · rw [if_pos hsync, hsync]; rfl
    · rw [if_neg hsync, resultTimestamp_response hsync, summary_timestamp_response rfl rfl hsync]; rfl
  · rw [decodeFrame_status h]; rfl
  · rw [decodeFrame_unknown h]; rfl

/-- Settles O43: STATUS 1 stands for no DecodedFrame. -/
theorem malformedHasOnlyARendering : Obligations.MalformedHasOnlyARendering := fun len =>
  ⟨fieldList_malformed len, summary_malformed len, render_malformed len⟩

/-- Settles O44: row by row of the opcode map, each label's text read off its flag. -/
theorem renderOfEveryKind : Obligations.RenderOfEveryKind := by
  refine ⟨fun f => ?_, fun f => rfl, render_malformed⟩
  refine eq_some_table_of_rows (fun h => ?_) (fun h => ?_) (fun h => ?_) (fun h => ?_) (fun h => ?_) (fun h => ?_)
    (fun h => ?_)
  · rw [decodeFrame_protocolVersion h]; rfl
  · rw [decodeFrame_joypad h, ← pushedLabel_text]; rfl
  · rw [decodeFrame_sendByteMaster h, ← speedLabel_text]; rfl
  · rw [decodeFrame_sendByteSlave h]; rfl
  · rw [decodeFrame_timestamp h]
    by_cases hsync : f[1] = 0#8
    · rw [if_pos hsync, hsync, render_timestamp_sync]; rfl
    · rw [if_neg hsync, render_timestamp_response hsync]; rfl
  · rw [decodeFrame_status h, ← status_line]; rfl
  · rw [decodeFrame_unknown h]; rfl

end Sys2Proof.Proofs
end

section
/-! PROOFS. The command kinds (R140 to R147): each instruction emits its kind's result from every state (R171), and the
bus shows that result's slots at the bits of R30. -/

namespace Sys2Proof.Machine

/-- An instruction answers its own result in RES with OV 1 and CNT 0, so what is claimed of the result it emits is a
claim about `resultOf` (R171). -/
theorem exec_emits (i : Instr) (s : State) {P : Res → Prop} (h : P (resultOf i)) :
    ∃ r : Res, exec i s = .next { s with res := r, ov := true, cnt := 0#3 } ∧ P r :=
  ⟨resultOf i, exec_eq i s, h⟩

/-- A flag that the spec writes as a shifted and masked byte is that bit of the byte (R32). -/
theorem shiftRight_and_one_setWidth (b : Byte) (i : Nat) :
    ((b >>> i) &&& 1#8).setWidth 1 = BitVec.ofBool (b.getLsbD i) := by
  ext j hj
  obtain rfl : j = 0 := by omega
  simp

/-- A choice by a flag's bit on the bus is the choice by the flag. -/
theorem ite_ofBool_eq_one {α : Type} (b : Bool) (x y : α) :
    (if BitVec.ofBool b = 1#1 then x else y) = if b then x else y := by
  cases b <;> rfl

end Sys2Proof.Machine

namespace Sys2Proof.Proofs

open Sys2Proof Sys2Proof.Machine

/-- Settles O11: the two versions stand in VA and VB as sent. -/
theorem protocolVersionEmitsMajorAndMinor : Obligations.ProtocolVersionEmitsMajorAndMinor := by
  refine ⟨fun _ => decode_protocolVersion, fun b1 b2 b3 ts s => ?_, ?_, ?_⟩
  · exact exec_emits (.protocolVersion b1 b2 b3 ts) s (Res.pack_shows _)
  · rw [decodeFrame_protocolVersion rfl]; rfl
  · rw [decodeFrame_protocolVersion rfl]; rfl

/-- Settles O12: the flag is bit 2 of B1, and the label's code is read off it. -/
theorem joypadEmitsButtonAndState : Obligations.JoypadEmitsButtonAndState := by
  refine ⟨fun _ => decode_joypad, fun b1 b2 b3 ts s => ?_, ?_⟩
  · dsimp only
    rw [shiftRight_and_one_setWidth, ite_ofBool_eq_one, ← pushedLabel_code]
    exact exec_emits (.joypad b1 b2 b3 ts) s (Res.pack_shows _)
  · rw [decodeFrame_joypad rfl]; rfl

/-- Settles O13: the flag is bit 1 of B2, and the label's code is read off it; VT is TS. -/
theorem sendByteMasterEmitsValueSpeedAndTime : Obligations.SendByteMasterEmitsValueSpeedAndTime := by
  refine ⟨fun _ => decode_sendByteMaster, fun b1 b2 b3 ts s => ?_, ?_⟩
  · dsimp only
    rw [shiftRight_and_one_setWidth, ite_ofBool_eq_one, ← speedLabel_code]
    exact exec_emits (.sendByteMaster b1 b2 b3 ts) s (Res.pack_shows _)
  · rw [decodeFrame_sendByteMaster rfl]; rfl

/-- Settles O14: the value and the control byte stand in VA and VB as sent, with no flag and no timestamp. -/
theorem sendByteSlaveEmitsValueAndControl : Obligations.SendByteSlaveEmitsValueAndControl := by
  refine ⟨fun _ => decode_sendByteSlave, fun b1 b2 b3 ts s => ?_, ?_⟩
  · exact exec_emits (.sendByteSlave b1 b2 b3 ts) s (Res.pack_shows _)
  · rw [decodeFrame_sendByteSlave rfl]; rfl

/-- Settles O15: B1 = 0 selects the synchronization branch, any other B1 the response without a timestamp. -/
theorem timestampEmitsFramecountAndBranch : Obligations.TimestampEmitsFramecountAndBranch := by
  refine ⟨fun _ => decode_timestamp, fun b1 b2 b3 ts s => ?_, ?_⟩
  · refine exec_emits (.timestamp b1 b2 b3 ts) s ⟨fun hsync => ?_, fun hresponse => ?_⟩
    · rw [hsync]
      exact Res.pack_shows _
    · rw [resultOf, resultTimestamp_response hresponse]
      exact Res.pack_shows _
  · rw [decodeFrame_timestamp rfl]; rfl

/-- Settles O16: the flag is bit 0 of B1, and the label's code is read off it. -/
theorem statusEmitsPausedOrRunning : Obligations.StatusEmitsPausedOrRunning := by
  refine ⟨fun _ => decode_status, fun b1 b2 b3 ts s => ?_, ?_⟩
  · have hpaused : (b1 &&& 1#8).setWidth 1 = BitVec.ofBool (pausedFlag b1) := shiftRight_and_one_setWidth b1 0
    dsimp only
    rw [hpaused, ite_ofBool_eq_one, ← pausedLabel_code]
    exact exec_emits (.status b1 b2 b3 ts) s (Res.pack_shows _)
  · rw [decodeFrame_status rfl]; rfl

/-- Settles O17: the identifier stands in VA as sent, whichever it is. -/
theorem unknownEmitsTheRawId : Obligations.UnknownEmitsTheRawId := by
  refine ⟨decode_unknown, fun id b1 b2 b3 ts s => ?_, ?_⟩
  · exact exec_emits (.unknown id b1 b2 b3 ts) s (Res.pack_shows _)
  · rw [decodeFrame_unknown (by decide)]; rfl

/-- Settles O18: the layout in force is the one the frame decodes under, and what the host reads off a RAW result is
what O41, O42 and O44 say of it. -/
theorem rawEmitsOnlyRawFields : Obligations.RawEmitsOnlyRawFields := by
  refine ⟨fun hasRaw s f => ?_, decode_raw, fun id b1 b2 b3 ts s => ?_, fun f => ?_⟩
  · rw [decode_layout, State.layout, Bool.and_eq_true, and_comm]
  · exact exec_emits (.raw id b1 b2 b3 ts) s (Res.pack_shows _)
  · obtain ⟨-, hfields, -⟩ := fieldListOfEveryKind
    obtain ⟨-, hsummary⟩ := summaryOfEveryKind
    obtain ⟨-, hrender, -⟩ := renderOfEveryKind
    exact ⟨hfields f, hsummary f, hrender f⟩

end Sys2Proof.Proofs
end

section
/-! PROOFS. The events one at a time (R170 to R176): what each step answers, and where Step is undefined. -/

namespace Sys2Proof.Machine

/-- The entry of the frame buffer at CNT holds the byte, and every other one what it held (R170, R172). -/
theorem State.writeFB_entry (s : State) (d : Byte) (k : Nat) (hk : k < 7) :
    (s.writeFB d).fb[k] = if k = s.cnt.toNat then d else s.fb[k] := by
  rw [State.writeFB_get]
  exact if_congr eq_comm rfl rfl

/-- The bytes of a full frame buffer and the completing byte are the buffer the decoder reads (R111, R171). -/
theorem decodeBytes_completed (fmt : Bool) (v : Vector Byte 7) (d : Byte) :
    decodeBytes fmt [v[0], v[1], v[2], v[3], v[4], v[5], v[6], d] = .ok (decode fmt (v.push d)) := by
  rw [push_eq_frame, ← decodeBytes_frame]
  rfl

/-- LEN of a Malformed result is the 4-bit numeral of CNT + 1 (R172). -/
theorem malformedLen_eq (cnt : BitVec 3) : malformedLen cnt = BitVec.ofNat 4 (cnt.toNat + 1) :=
  BitVec.eq_of_toNat_eq (by rw [malformedLen_toNat, BitVec.toNat_ofNat, Nat.mod_eq_of_lt (by omega)])

/-- CTRL reads the layout in force as a number (R27, R175). -/
theorem State.cfgByte_ctrl_toNat (hasRaw : Bool) (s : State) :
    (s.cfgByte hasRaw 0#2).toNat = (s.fmt && hasRaw).toNat := by
  have hread : ∀ b : Bool, ((BitVec.ofBool b).setWidth 8).toNat = b.toNat := by decide
  exact hread (s.layout hasRaw)

/-- STATUS reads OV as 8 and CNT as its count (R28, R175). -/
theorem State.cfgByte_status_toNat (hasRaw : Bool) (s : State) :
    (s.cfgByte hasRaw 1#2).toNat = 8 * s.ov.toNat + s.cnt.toNat := by
  have hread : ∀ (ov : Bool) (cnt : BitVec 3),
      ((BitVec.ofBool ov ++ cnt).setWidth 8).toNat = 8 * ov.toNat + cnt.toNat := by decide
  exact hread s.ov s.cnt

/-- The reserved addresses read 0x00 (R29, R175). -/
theorem State.cfgByte_reserved {a : CfgAddr} (ha : a = 2#2 ∨ a = 3#2) (hasRaw : Bool) (s : State) :
    s.cfgByte hasRaw a = 0x00#8 := by
  obtain rfl | rfl := ha <;> rfl

/-- The events that cannot occur: a byte while a result is pending, and a Take while none is (R176). -/
theorem enabled_eq_false_iff {e : Event} {s : State} :
    enabled e s = false ↔ ((∃ d eos, e = .byteIn d eos) ∧ s.ov = true) ∨ (e = .take ∧ s.ov = false) := by
  cases e <;> simp [enabled]

/-- Step(s, e) is undefined exactly where the event is not enabled (R176). -/
theorem eventStep_eq_none_iff {hasRaw : Bool} {e : Event} {s : State} :
    eventStep hasRaw e s = none ↔ enabled e s = false := by
  simp [eventStep]

/-- Step(s, e) of an enabled event is what the event does (R176). -/
theorem eventStep_of_enabled {hasRaw : Bool} {e : Event} {s : State} (hen : enabled e s = true) :
    eventStep hasRaw e s = some (applyEvent hasRaw e s) := if_pos hen

end Sys2Proof.Machine

namespace Sys2Proof.Proofs

open Sys2Proof Sys2Proof.Machine

/-- Settles O19: the eighth byte completes the frame, and the decoder on its eight bytes is `decode`. -/
theorem stepRunsTheDecodedInstruction : Obligations.StepRunsTheDecodedInstruction := by
  intro s d eos rest i hin hov hcnt hdecode
  obtain rfl : decode (s.layout Config.hasRawMode) (s.fb.push d) = i := by
    simpa only [decodeBytes_completed, Except.ok.injEq] using hdecode
  exact (stepWith_byteIn hov hin).trans (byteIn_complete hcnt)

/-- Settles O20: the byte is stored, below 7 CNT advances without a wrap, and FB changes at CNT alone. -/
theorem byteInStoresAndAdvances : Obligations.ByteInStoresAndAdvances := by
  intro hasRaw s d rest hin hov hlt
  have hcnt : s.cnt ≠ 7#3 := cnt_ne_seven_of_lt hlt
  exact ⟨storeByte d { s with inputs := rest, held := none }, (stepWith_byteIn hov hin).trans (byteIn_store hcnt),
    rfl, cnt_advance_toNat hcnt, s.writeFB_entry d⟩

/-- Settles O21: completion emits Decode of FB[0..6] and the byte, and closes the frame. -/
theorem byteInCompletesAFrame : Obligations.ByteInCompletesAFrame := by
  intro hasRaw s d eos rest hin hov hcnt
  have hstep := (stepWith_byteIn (hasRaw := hasRaw) hov hin).trans (byteIn_complete hcnt)
  rw [completeFrame_eq, push_eq_frame] at hstep
  exact hstep

/-- Settles O22: the run's end raises the error with LEN = CNT + 1, and the bus shows that result's fields. -/
theorem byteInEndsARunWithMalformed : Obligations.ByteInEndsARunWithMalformed := by
  intro hasRaw s d rest hin hov hlt
  refine ⟨endRun d { s with inputs := rest, held := none },
    (stepWith_byteIn hov hin).trans (byteIn_endRun (cnt_ne_seven_of_lt hlt)), rfl, s.writeFB_entry d, ?_,
    malformedLen_toNat s.cnt⟩
  rw [endRun_res, malformedLen_eq]
  exact Res.pack_shows _

/-- Settles O23: a Take occurs where a result is pending, and nowhere else. -/
theorem takeDeliversAndClears : Obligations.TakeDeliversAndClears := fun _ _ _ hin =>
  ⟨fun hov => stepWith_of_enabled hin hov, fun hov => eventStep_eq_none_iff.mpr hov⟩

/-- Settles O24: a write occurs in every state, and is a write of FMT at address 0 with the raw layout there. -/
theorem cfgWriteSetsOnlyFmt : Obligations.CfgWriteSetsOnlyFmt := by
  intro hasRaw s a v rest hin
  rw [stepWith_of_enabled hin rfl, applyEvent]
  refine ⟨?_, ?_⟩
  · rintro ⟨rfl, rfl⟩
    rfl
  · rintro (ha | rfl)
    · rw [State.cfgStore_of_ne ha]
      rfl
    · rw [State.cfgStore_hardwired]
      rfl

/-- Settles O25: a read occurs in every state and hands over the byte at the address. -/
theorem cfgReadReturnsTheRegister : Obligations.CfgReadReturnsTheRegister := by
  intro hasRaw s a rest hin
  refine ⟨s.cfgByte hasRaw a, stepWith_of_enabled hin rfl, ?_, ?_, fun ha => State.cfgByte_reserved ha hasRaw s⟩
  · rintro rfl
    exact s.cfgByte_ctrl_toNat hasRaw
  · rintro rfl
    exact s.cfgByte_status_toNat hasRaw

/-- Settles O26: Step is defined where the event is enabled, an enabled event has a next state, and a held event or
none leaves the state. -/
theorem stepIsPartialAndSingleValued : Obligations.StepIsPartialAndSingleValued := by
  refine ⟨fun hasRaw e s => ⟨eventStep_eq_none_iff.trans enabled_eq_false_iff, fun hdefined => ?_⟩,
    fun _ _ _ _ hin hnone => stepWith_of_disabled hin (eventStep_eq_none_iff.mp hnone), fun _ _ => stepWith_idle⟩
  have hen : enabled e s = true := by simpa [eventStep_eq_none_iff] using hdefined
  obtain ⟨t, ht⟩ := applyEvent_total hasRaw e s
  exact ⟨t, (eventStep_of_enabled hen).trans (congrArg some ht)⟩

end Sys2Proof.Proofs
end

section
/-! PROOFS. A run of bytes (R177): what the events of one byte do from where the bytes before it left the block, and the
results a run is to give, read byte by byte. -/

namespace Sys2Proof.Machine

/-- From every state where `P` holds, with the events `es` first in the host's list, as many steps as there are events
take exactly these from the list and lead to a state where `Q` holds. -/
def RunsTo (hasRaw : Bool) (es : List Event) (P Q : State → Prop) : Prop :=
  ∀ (s : State) (rest : List Stimulus), P s → s.inputs = es.map .event ++ rest →
    ∃ t : State, runWith hasRaw es.length s = .next t ∧ t.inputs = rest ∧ Q t

/-- Steps in a row, split after the first `m`. -/
theorem runWith_add (hasRaw : Bool) (m n : Nat) (s : State) :
    runWith hasRaw (m + n) s = andThen (runWith hasRaw m s) (runWith hasRaw n) := by
  induction m generalizing s with
  | zero => simp [runWith]
  | succ m ih =>
    rw [Nat.add_right_comm, runWith, runWith]
    cases stepWith hasRaw s with
    | next t => exact ih t
    | fault r => rfl
    | refused r => rfl

namespace RunsTo

variable {hasRaw : Bool} {P Q R : State → Prop}

theorem nil : RunsTo hasRaw [] P P := fun s _ hP hin => ⟨s, rfl, hin, hP⟩

theorem append {es fs : List Event} (hes : RunsTo hasRaw es P Q) (hfs : RunsTo hasRaw fs Q R) :
    RunsTo hasRaw (es ++ fs) P R := by
  intro s rest hP hin
  rw [List.map_append, List.append_assoc] at hin
  obtain ⟨t, hrun, hrest, hQ⟩ := hes s _ hP hin
  obtain ⟨u, hrun', hend⟩ := hfs t rest hQ hrest
  rw [List.length_append, runWith_add, hrun]
  exact ⟨u, hrun', hend⟩

/-- One event, by what it does where it is enabled (R176). -/
theorem of_event {e : Event}
    (h : ∀ s : State, P s → enabled e s = true ∧ ∀ (rest : List Stimulus) (held : Option (Byte × Bool)),
      ∃ t, applyEvent hasRaw e { s with inputs := rest, held := held } = .next t ∧ t.inputs = rest ∧ Q t) :
    RunsTo hasRaw [e] P Q := by
  intro s rest hP hin
  obtain ⟨hen, happly⟩ := h s hP
  obtain ⟨t, ht, hend⟩ := happly rest (heldAfterEvent e s)
  have hstep : stepWith hasRaw s = .next t := (stepWith_of_enabled hin hen).trans ht
  refine ⟨t, ?_, hend⟩
  rw [List.length_singleton, runWith, hstep]
  rfl

end RunsTo

/-- Inside a run: nothing pending, the bytes `acc` of the current frame accepted, FMT as stored, and the results handed
over so far. -/
structure State.Accepting (acc : List Byte) (fmt : Bool) (taken : List Res) (s : State) : Prop where
  accepted_eq : s.accepted = acc
  ov_eq : s.ov = false
  fmt_eq : s.fmt = fmt
  taken_eq : s.taken = taken

/-- Right after an emit: the result `r` pending at a frame boundary. -/
structure State.Emitting (r : Res) (fmt : Bool) (taken : List Res) (s : State) : Prop where
  cnt_eq : s.cnt = 0#3
  ov_eq : s.ov = true
  res_eq : s.res = r
  fmt_eq : s.fmt = fmt
  taken_eq : s.taken = taken

/-- A byte is accepted where nothing is pending (R52). -/
theorem enabled_byteIn {d : Byte} {eos : Bool} {s : State} (hov : s.ov = false) :
    enabled (.byteIn d eos) s = true := congrArg not hov

/-- CNT is the number of bytes accepted (R21). -/
theorem State.length_accepted (s : State) : s.accepted.length = s.cnt.toNat := by
  have := s.cnt.isLt
  rw [State.accepted, List.length_take, Vector.length_toList]
  omega

/-- CNT read off the number of bytes accepted (R21). -/
theorem State.cnt_eq_of_accepted {s : State} {cnt : BitVec 3} (h : s.accepted.length = cnt.toNat) : s.cnt = cnt :=
  BitVec.eq_of_toNat_eq (s.length_accepted.symm.trans h)

section

variable {hasRaw : Bool} {acc : List Byte} {fmt : Bool} {taken : List Res}

/-- A write at the configuration port inside a run (R174). -/
theorem runsTo_cfgWrite (a : CfgAddr) (v : Byte) :
    RunsTo hasRaw [.cfgWrite a v] (State.Accepting acc fmt taken)
      (State.Accepting acc (layoutAfter hasRaw fmt [(a, v)]) taken) := by
  refine .of_event fun s h => ⟨rfl, fun rest held => ⟨_, rfl, by simp, ?_⟩⟩
  obtain ⟨rfl, hov, rfl, rfl⟩ := h
  exact ⟨by simp [State.accepted], by simp [hov], by simp [layoutAfter], by simp⟩

/-- The writes before a byte leave CTRL.FMT as `layoutAfter` says, and nothing else changed (R174). -/
theorem runsTo_writes (ws : List (CfgAddr × Byte)) :
    RunsTo hasRaw (ws.map fun w => .cfgWrite w.1 w.2) (State.Accepting acc fmt taken)
      (State.Accepting acc (layoutAfter hasRaw fmt ws) taken) := by
  induction ws generalizing fmt with
  | nil => exact .nil
  | cons w ws ih => exact (runsTo_cfgWrite w.1 w.2).append ih

/-- A byte inside a frame (R170). -/
theorem runsTo_storeByte (d : Byte) (hlt : acc.length < 7) :
    RunsTo hasRaw [.byteIn d false] (State.Accepting acc fmt taken) (State.Accepting (acc ++ [d]) fmt taken) := by
  refine .of_event fun s h => ?_
  obtain ⟨rfl, hov, rfl, rfl⟩ := h
  have hcnt : s.cnt ≠ 7#3 := cnt_ne_seven_of_lt (s.length_accepted ▸ hlt)
  exact ⟨enabled_byteIn hov, fun rest held => ⟨_, byteIn_store hcnt, rfl,
    accepted_storeByte (s := { s with inputs := rest, held := held }) d hcnt, hov, rfl, rfl⟩⟩

/-- The byte that completes a frame emits Decode of it (R171). -/
theorem runsTo_complete (d : Byte) (eos : Bool) {f : Frame} (hf : f.toList = acc ++ [d]) :
    RunsTo hasRaw [.byteIn d eos] (State.Accepting acc fmt taken)
      (State.Emitting (decodeFrame (fmt && hasRaw) f) fmt taken) := by
  refine .of_event fun s h => ?_
  obtain ⟨rfl, hov, rfl, rfl⟩ := h
  have hlen : s.accepted.length = 7 := by simpa using (congrArg List.length hf).symm
  have hcnt : s.cnt = 7#3 := State.cnt_eq_of_accepted hlen
  have hframe : s.fb.push d = f := by
    rw [State.accepted_of_full hcnt] at hf
    exact Vector.toList_inj.mp ((Vector.toList_push ..).trans hf.symm)
  refine ⟨enabled_byteIn hov, fun rest held => ?_⟩
  have happly := (byteIn_complete (hasRaw := hasRaw) (d := d) (eos := eos)
    (s := { s with inputs := rest, held := held }) hcnt).trans (completeFrame_eq ..)
  exact ⟨_, happly, rfl, rfl, rfl, congrArg (decodeFrame (s.fmt && hasRaw)) hframe, rfl, rfl⟩

/-- The byte that ends a run inside a frame emits Malformed with the number of its bytes (R172). -/
theorem runsTo_endRun (d : Byte) (hlt : acc.length < 7) :
    RunsTo hasRaw [.byteIn d true] (State.Accepting acc fmt taken)
      (State.Emitting (malformedResult (BitVec.ofNat 4 (acc.length + 1))) fmt taken) := by
  refine .of_event fun s h => ?_
  obtain ⟨rfl, hov, rfl, rfl⟩ := h
  rw [State.length_accepted] at hlt ⊢
  exact ⟨enabled_byteIn hov, fun rest held => ⟨_, byteIn_endRun (cnt_ne_seven_of_lt hlt), rfl, rfl, rfl,
    congrArg malformedResult (malformedLen_eq s.cnt), rfl, rfl⟩⟩

/-- The Take after an emit hands the result over and leaves the block at a frame boundary (R173). -/
theorem runsTo_take {r : Res} :
    RunsTo hasRaw [.take] (State.Emitting r fmt taken) (State.Accepting [] fmt (taken ++ [r])) := by
  refine .of_event fun s h => ?_
  obtain ⟨hcnt, hov, rfl, rfl, rfl⟩ := h
  exact ⟨hov, fun rest held => ⟨_, rfl, rfl, State.accepted_of_boundary hcnt, rfl, rfl, rfl⟩⟩

end

/-- The bytes of the unfinished frame at the end of a row of bytes (R57). -/
def openBytes (pre : List RunByte) : List Byte := (pre.map RunByte.data).drop (8 * (pre.length / 8))

theorem length_openBytes (pre : List RunByte) : (openBytes pre).length = pre.length % 8 := by
  rw [openBytes, List.length_drop, List.length_map]
  omega

/-- A byte that completes no frame joins the unfinished one. -/
theorem openBytes_append_of_ne {pre : List RunByte} (x : RunByte) (h : pre.length % 8 ≠ 7) :
    openBytes (pre ++ [x]) = openBytes pre ++ [x.data] := by
  have hframes : (pre.length + 1) / 8 = pre.length / 8 := by omega
  rw [openBytes, List.length_append, List.length_singleton, hframes, List.map_append,
    List.drop_append_of_le_length (by rw [List.length_map]; omega)]
  rfl

/-- A completed frame leaves no bytes open. -/
theorem openBytes_of_whole {pre : List RunByte} (h : pre.length % 8 = 0) : openBytes pre = [] :=
  List.length_eq_zero_iff.mp ((length_openBytes pre).trans h)

/-- The result of frame j of a run: Decode of the frame under the layout at its completing byte (R177). -/
def frameResult (hasRaw m : Bool) (xs : List RunByte) (j : Nat) : Res :=
  decodeFrame (runLayout hasRaw m xs (8 * j + 7) && hasRaw) (runFrame xs j)

/-- The results of the whole frames of a run: the first part of `runResults` (R177). -/
def wholeResults (hasRaw m : Bool) (xs : List RunByte) : List Res :=
  (List.range (xs.length / 8)).map (frameResult hasRaw m xs)

theorem runResults_eq (hasRaw m : Bool) (xs : List RunByte) :
    runResults hasRaw m xs = wholeResults hasRaw m xs ++
      if xs.length % 8 = 0 then [] else [malformedResult (BitVec.ofNat 4 (xs.length % 8))] := rfl

/-- Writes in two rows are the first and then the second (R174). -/
theorem layoutAfter_append (hasRaw m : Bool) (ws vs : List (CfgAddr × Byte)) :
    layoutAfter hasRaw m (ws ++ vs) = layoutAfter hasRaw (layoutAfter hasRaw m ws) vs := List.foldl_append

/-- A frame's result depends on the bytes up to its completing byte alone (R177). -/
theorem frameResult_append {pre : List RunByte} {j : Nat} (h : 8 * j + 7 < pre.length) (hasRaw m : Bool)
    (ys : List RunByte) : frameResult hasRaw m (pre ++ ys) j = frameResult hasRaw m pre j := by
  have hlayout : runLayout hasRaw m (pre ++ ys) (8 * j + 7) = runLayout hasRaw m pre (8 * j + 7) := by
    rw [runLayout, runLayout, List.take_append_of_le_length h]
  have hframe : runFrame (pre ++ ys) j = runFrame pre j := by
    refine congrArg Vector.ofFn (funext fun i => ?_)
    rw [List.getElem?_append_left (by omega)]
  rw [frameResult, frameResult, hlayout, hframe]

/-- The frame that a byte completes is the bytes open before it, and the byte (R57). -/
theorem runFrame_completed {pre : List RunByte} (x : RunByte) (h : pre.length % 8 = 7) :
    (runFrame (pre ++ [x]) (pre.length / 8)).toList = openBytes pre ++ [x.data] := by
  have hopen : openBytes pre ++ [x.data] = ((pre ++ [x]).map RunByte.data).drop (8 * (pre.length / 8)) := by
    rw [List.map_append, List.drop_append_of_le_length (by rw [List.length_map]; omega)]
    rfl
  rw [hopen]
  refine List.ext_getElem (by simp; omega) fun i hi _ => ?_
  have hi8 : i < 8 := by simpa using hi
  have hlt : 8 * (pre.length / 8) + i < (pre ++ [x]).length := by
    rw [List.length_append, List.length_singleton]
    omega
  simp only [runFrame, Vector.getElem_toList, Vector.getElem_ofFn, List.getElem_drop, List.getElem_map,
    List.getElem?_eq_getElem hlt, Option.map_some, Option.getD_some]

/-- The result of the frame that a byte completes. -/
theorem frameResult_completed {pre : List RunByte} (hasRaw m : Bool) (x : RunByte) (h : pre.length % 8 = 7) :
    frameResult hasRaw m (pre ++ [x]) (pre.length / 8) =
      decodeFrame (layoutAfter hasRaw m ((pre ++ [x]).flatMap RunByte.writes) && hasRaw)
        (runFrame (pre ++ [x]) (pre.length / 8)) := by
  have hall : (pre ++ [x]).length ≤ 8 * (pre.length / 8) + 7 + 1 := by
    rw [List.length_append, List.length_singleton]
    omega
  rw [frameResult, runLayout, List.take_of_length_le hall]

/-- The frames that are whole before a byte give the same results after it. -/
theorem map_frameResult_append (hasRaw m : Bool) (pre ys : List RunByte) :
    (List.range (pre.length / 8)).map (frameResult hasRaw m (pre ++ ys)) = wholeResults hasRaw m pre := by
  refine List.map_congr_left fun j hj => frameResult_append ?_ hasRaw m ys
  have := List.mem_range.mp hj
  omega

/-- A byte that completes no frame adds no whole frame. -/
theorem wholeResults_append_of_ne {pre : List RunByte} (hasRaw m : Bool) (x : RunByte) (h : pre.length % 8 ≠ 7) :
    wholeResults hasRaw m (pre ++ [x]) = wholeResults hasRaw m pre := by
  have hframes : (pre ++ [x]).length / 8 = pre.length / 8 := by
    rw [List.length_append, List.length_singleton]
    omega
  rw [wholeResults, hframes, map_frameResult_append]

/-- A byte that completes a frame adds its result. -/
theorem wholeResults_completed {pre : List RunByte} (hasRaw m : Bool) (x : RunByte) (h : pre.length % 8 = 7) :
    wholeResults hasRaw m (pre ++ [x]) =
      wholeResults hasRaw m pre ++ [frameResult hasRaw m (pre ++ [x]) (pre.length / 8)] := by
  have hframes : (pre ++ [x]).length / 8 = pre.length / 8 + 1 := by
    rw [List.length_append, List.length_singleton]
    omega
  rw [wholeResults, hframes, List.range_succ, List.map_append, map_frameResult_append]
  rfl

/-- Where the bytes `pre` of a run leave the block, for a run that began under FMT `m` with `taken` handed over
already. -/
def State.AfterBytes (hasRaw m : Bool) (taken : List Res) (pre : List RunByte) : State → Prop :=
  State.Accepting (openBytes pre) (layoutAfter hasRaw m (pre.flatMap RunByte.writes))
    (taken ++ wholeResults hasRaw m pre)

section

variable {hasRaw m : Bool} {taken : List Res} {pre : List RunByte}

/-- The writes before a byte of a run bring FMT to its layout at that byte. -/
theorem runsTo_writes_of_byte (x : RunByte) :
    RunsTo hasRaw (x.writes.map fun w => .cfgWrite w.1 w.2) (State.AfterBytes hasRaw m taken pre)
      (State.Accepting (openBytes pre) (layoutAfter hasRaw m ((pre ++ [x]).flatMap RunByte.writes))
        (taken ++ wholeResults hasRaw m pre)) := by
  rw [List.flatMap_append, List.flatMap_singleton, layoutAfter_append]
  exact runsTo_writes x.writes

/-- A byte of a run that completes no frame and does not end the run (R170). -/
theorem runsTo_openByte (x : RunByte) (h : pre.length % 8 ≠ 7) :
    RunsTo hasRaw ((x.writes.map fun w => .cfgWrite w.1 w.2) ++ [.byteIn x.data false])
      (State.AfterBytes hasRaw m taken pre) (State.AfterBytes hasRaw m taken (pre ++ [x])) := by
  refine (runsTo_writes_of_byte x).append ?_
  rw [State.AfterBytes, openBytes_append_of_ne x h, wholeResults_append_of_ne hasRaw m x h]
  exact runsTo_storeByte x.data (by rw [length_openBytes]; omega)

/-- A byte of a run that completes a frame, and the Take of its result, whatever eos is (R171, R173). -/
theorem runsTo_completingByte (x : RunByte) (eos : Bool) (h : pre.length % 8 = 7) :
    RunsTo hasRaw ((x.writes.map fun w => .cfgWrite w.1 w.2) ++ [.byteIn x.data eos, .take])
      (State.AfterBytes hasRaw m taken pre) (State.AfterBytes hasRaw m taken (pre ++ [x])) := by
  have hwhole : (pre ++ [x]).length % 8 = 0 := by
    rw [List.length_append, List.length_singleton]
    omega
  refine (runsTo_writes_of_byte x).append ?_
  rw [State.AfterBytes, openBytes_of_whole hwhole, wholeResults_completed hasRaw m x h,
    frameResult_completed hasRaw m x h, ← List.append_assoc]
  exact (runsTo_complete x.data eos (runFrame_completed x h)).append runsTo_take

/-- The last byte of a run completes a frame or ends the run, and after its Take the host has been handed what R177
states (R171, R172). -/
theorem runsTo_lastByte (x : RunByte) :
    RunsTo hasRaw ((x.writes.map fun w => .cfgWrite w.1 w.2) ++ [.byteIn x.data true, .take])
      (State.AfterBytes hasRaw m taken pre)
      (State.Accepting [] (layoutAfter hasRaw m ((pre ++ [x]).flatMap RunByte.writes))
        (taken ++ runResults hasRaw m (pre ++ [x]))) := by
  have hlen : (pre ++ [x]).length = pre.length + 1 := List.length_append
  by_cases h : pre.length % 8 = 7
  · have hwhole : (pre ++ [x]).length % 8 = 0 := by omega
    rw [runResults_eq, if_pos hwhole, List.append_nil, ← openBytes_of_whole hwhole]
    exact runsTo_completingByte x true h
  · have hrest : (pre ++ [x]).length % 8 = (openBytes pre).length + 1 := by
      rw [length_openBytes]
      omega
    rw [runResults_eq, if_neg (by omega), hrest, wholeResults_append_of_ne hasRaw m x h, ← List.append_assoc]
    exact (runsTo_writes_of_byte x).append
      ((runsTo_endRun x.data (by rw [length_openBytes]; omega)).append runsTo_take)

/-- The rest of a run, from where the bytes before it left the block, gives the results of the whole run (R177). -/
theorem runsTo_rest (x : RunByte) (xs : List RunByte) :
    RunsTo hasRaw (runEvents pre.length (x :: xs)) (State.AfterBytes hasRaw m taken pre)
      (State.Accepting [] (layoutAfter hasRaw m ((pre ++ x :: xs).flatMap RunByte.writes))
        (taken ++ runResults hasRaw m (pre ++ x :: xs))) := by
  induction xs generalizing x pre with
  | nil => exact runsTo_lastByte x
  | cons y ys ih =>
    have hys := ih (pre := pre ++ [x]) y
    rw [List.length_append, List.length_singleton, List.append_assoc, List.singleton_append] at hys
    by_cases h : pre.length % 8 = 7
    · simpa [runEvents, h] using (runsTo_completingByte x false h).append hys
    · simpa [runEvents, h] using (runsTo_openByte x h).append hys

end

/-- A run leads from a frame boundary with nothing pending to such a boundary, and hands over its results (R177). -/
theorem runsTo_runEvents (hasRaw m : Bool) (taken : List Res) (xs : List RunByte) :
    RunsTo hasRaw (runEvents 0 xs) (State.Accepting [] m taken)
      (State.Accepting [] (layoutAfter hasRaw m (xs.flatMap RunByte.writes)) (taken ++ runResults hasRaw m xs)) := by
  have hstart : State.AfterBytes hasRaw m taken [] = State.Accepting [] m taken :=
    congrArg (State.Accepting [] m) (List.append_nil taken)
  rw [← hstart]
  cases xs with
  | nil => exact .nil
  | cons x xs => exact runsTo_rest (pre := []) x xs

end Sys2Proof.Machine

namespace Sys2Proof.Proofs

open Sys2Proof Sys2Proof.Machine

/-- Settles O52, byte by byte: after each byte of the run the open bytes are the accepted ones and the results of the
whole frames have been handed over; the last byte adds the remainder's. -/
theorem aRunGivesItsFramesThenItsRemainder : Obligations.ARunGivesItsFramesThenItsRemainder := by
  intro hasRaw s xs rest hcnt hov hin
  have hstart : s.Accepting [] s.fmt s.taken := ⟨State.accepted_of_boundary hcnt, hov, rfl, rfl⟩
  obtain ⟨t, ht, hrest, hend⟩ := runsTo_runEvents hasRaw s.fmt s.taken xs s rest hstart hin
  exact ⟨t, ht, hend.taken_eq, State.cnt_eq_of_accepted (congrArg List.length hend.accepted_eq), hend.ov_eq, hrest⟩

end Sys2Proof.Proofs
end

section
/-! PROOFS. The block's one error (R200, R204, R205): which event raises MalformedFrame, and that a completing byte
does not. -/

namespace Sys2Proof.Machine

/-- A decoded result is no error: STATUS 0 and LEN 8 (R112). -/
theorem decodeFrame_status_len (fmt : Bool) (f : Frame) :
    (decodeFrame fmt f).status = false ∧ (decodeFrame fmt f).len = 8#4 := by
  obtain ⟨hstatus, hlen, -⟩ := resultOf_base (decode fmt f)
  exact ⟨hstatus, hlen⟩

/-- An event that raises OV is an emit; one with a Malformed result is a run's end before the 8th byte (R172, R200). -/
theorem applyEvent_raises_malformed {hasRaw : Bool} {e : Event} {s t : State}
    (h : applyEvent hasRaw e s = .next t) (hov : s.ov = false) (hraised : t.ov = true)
    (hmalformed : t.res.status = true) : ∃ d, e = .byteIn d true ∧ s.cnt ≠ 7#3 ∧ t = endRun d s := by
  have hrise : t.ov ≠ s.ov := by rw [hraised, hov]; exact nofun
  rcases applyEvent_cases h with ⟨d, eos, -, -, rfl⟩ | ⟨d, rfl, hcnt, rfl⟩ | ⟨d, -, -, rfl⟩ | ⟨-, rfl⟩ |
    ⟨a, v, -, rfl⟩ | ⟨a, -, rfl⟩ | ⟨-, rfl⟩
  · obtain ⟨hstatus, -⟩ := decodeFrame_status_len (s.layout hasRaw) (s.fb.push d)
    exact absurd (hstatus.symm.trans hmalformed) nofun
  · exact ⟨d, rfl, hcnt, rfl⟩
  · exact absurd (storeByte_ov d s) hrise
  · exact absurd hraised nofun
  · exact absurd (State.cfgStore_ov ..) hrise
  · exact absurd (cfgReadOut_ov ..) hrise
  · exact absurd hraised nofun

end Sys2Proof.Machine

namespace Sys2Proof.Proofs

open Sys2Proof Sys2Proof.Machine

/-- Settles O36: an event that is held raises nothing, and one that raises the error is the run's end, which counts its
byte and closes the frame. -/
theorem onlyARunEndRaisesMalformed : Obligations.OnlyARunEndRaisesMalformed := by
  intro hasRaw s t e rest hin h hov hraised hmalformed
  obtain ⟨-, rfl⟩ | ⟨-, hev⟩ := stepWith_event hin h
  · exact absurd (hov.symm.trans hraised) nofun
  obtain ⟨d, rfl, hcnt, rfl⟩ := applyEvent_raises_malformed hev hov hraised hmalformed
  exact ⟨d, rfl, hcnt, malformedLen_toNat s.cnt, rfl, rfl⟩

/-- Settles O32: with either eos the eighth byte completes the frame, and what it emits is a decoded result. -/
theorem completionBeatsEndOfRun : Obligations.CompletionBeatsEndOfRun := by
  intro hasRaw s d rest hov hcnt
  have hcomplete : ∀ eos, stepWith hasRaw { s with inputs := .event (.byteIn d eos) :: rest } =
      completeFrame hasRaw d { s with inputs := rest, held := none } := fun eos =>
    (stepWith_byteIn (s := { s with inputs := .event (.byteIn d eos) :: rest }) hov rfl).trans (byteIn_complete hcnt)
  exact ⟨(hcomplete true).trans (hcomplete false).symm, _, (hcomplete true).trans (completeFrame_eq ..),
    decodeFrame_status_len ..⟩

end Sys2Proof.Proofs
end

section
/-! PROOFS. A clock edge as single events (R52, R240): the host's side of the state does not steer an event, so the
events of an edge run one by one as they do at the edge; and what an edge with an accepted byte does. -/

namespace Sys2Proof.Machine

/-- What the host sends and what an edge held back do not steer an event (R12). -/
theorem applyEvent_withHost {hasRaw : Bool} {e : Event} {s t : State} (h : applyEvent hasRaw e s = .next t)
    (inputs : List Stimulus) (held : Option (Byte × Bool)) :
    ∃ held', applyEvent hasRaw e { s with inputs := inputs, held := held } =
      .next { t with inputs := inputs, held := held' } := by
  rcases applyEvent_cases h with ⟨d, eos, rfl, hcnt, rfl⟩ | ⟨d, rfl, hcnt, rfl⟩ | ⟨d, rfl, hcnt, rfl⟩ | ⟨rfl, rfl⟩ |
    ⟨a, v, rfl, rfl⟩ | ⟨a, rfl, rfl⟩ | ⟨rfl, rfl⟩
  · exact ⟨held, (byteIn_complete (by exact hcnt)).trans (completeFrame_eq ..)⟩
  · exact ⟨held, byteIn_endRun (by exact hcnt)⟩
  · exact ⟨held, byteIn_store (by exact hcnt)⟩
  · exact ⟨held, rfl⟩
  · exact ⟨held, by simp only [applyEvent, State.cfgStore_eq]⟩
  · exact ⟨held, rfl⟩
  · exact ⟨none, rfl⟩

/-- An event leaves alone what the host has still to send (R12). -/
theorem applyEvent_inputs {hasRaw : Bool} {e : Event} {s t : State} (h : applyEvent hasRaw e s = .next t) :
    t.inputs = s.inputs := by
  obtain ⟨held', hsame⟩ := applyEvent_withHost h s.inputs s.held
  have ht := Host.Outcome.next.inj (h.symm.trans hsame)
  exact (congrArg State.inputs ht :)

/-- Events in a row leave alone what the host has still to send. -/
theorem Occurs.inputs_eq {hasRaw : Bool} {es : List Event} {s t : State} (hrun : Occurs hasRaw es s t) :
    t.inputs = s.inputs := by
  induction hrun with
  | nil => rfl
  | cons _ hstep _ ih => exact ih.trans (applyEvent_inputs hstep)

/-- Events that occur in a row, sent by the host one at a time, take a step each and lead to the same block (R176). -/
theorem Occurs.runWith_singly {hasRaw : Bool} {es : List Event} {s t : State} (hrun : Occurs hasRaw es s t)
    (rest : List Stimulus) (held : Option (Byte × Bool)) :
    ∃ held', runWith hasRaw es.length { s with inputs := es.map .event ++ rest, held := held } =
      .next { t with inputs := rest, held := held' } := by
  induction hrun generalizing held with
  | nil => exact ⟨held, rfl⟩
  | @cons e es s u t hen hstep _ ih =>
    let start : State := { s with inputs := (e :: es).map .event ++ rest, held := held }
    obtain ⟨held₁, happly⟩ := applyEvent_withHost hstep (es.map .event ++ rest) (heldAfterEvent e start)
    have hfirst : stepWith hasRaw start = .next { u with inputs := es.map .event ++ rest, held := held₁ } :=
      (stepWith_of_enabled rfl ((enabled_withHost ..).trans hen)).trans happly
    obtain ⟨held₂, hlater⟩ := ih held₁
    exact ⟨held₂, andThen_next.mpr ⟨_, hfirst, hlater⟩⟩

/-- At an edge without reset the pins select Take, ByteIn and CfgWrite by R52's and R53's levels (R240). -/
theorem edgeEvents_of_no_reset {p : Pins} (s : State) (hrst : p.rst = false) :
    edgeEvents p s =
      (if s.ov = true ∧ p.outReady = true then [.take] else []) ++
      (if p.inValid = true ∧ (s.ov = false ∨ p.outReady = true) then [.byteIn p.inData p.inEos] else []) ++
      (if p.cfgWe = true then [.cfgWrite p.cfgAddr p.cfgWdata] else []) := by
  simp [edgeEvents, hrst, outValid, inReady]

/-- An edge with reset is the Reset event, whatever else the pins show (R51, R240). -/
theorem stepWith_edge_reset {hasRaw : Bool} {s : State} {p : Pins} {rest : List Stimulus}
    (hin : s.inputs = .edge p :: rest) (hkeep : keepsHeldByte p s) (hrst : p.rst = true) :
    stepWith hasRaw s = .next { s with inputs := rest }.resetBlock := by
  have hevents : edgeEvents p s = [.reset] := by simp [edgeEvents, hrst]
  rw [stepWith_of_edge hin (changesHeldByte_eq_false.mpr hkeep), hevents]
  rfl

/-- The write of an edge, if there is one, changes FMT at most (R174). -/
theorem applyEvents_optional_write (hasRaw c : Bool) (a : CfgAddr) (v : Byte) (s : State) :
    ∃ fmt, applyEvents hasRaw (if c then [.cfgWrite a v] else []) s = .next { s with fmt := fmt } := by
  cases c with
  | false => exact ⟨s.fmt, rfl⟩
  | true => exact ⟨_, congrArg Host.Outcome.next (s.cfgStore_eq hasRaw a v)⟩

/-- A Take makes the block ready, so an edge with a Take and a byte accepts both, in this order, and its write can
change FMT alone after them (R52, R240). -/
theorem stepWith_edge_take_byte {hasRaw : Bool} {s t : State} {p : Pins} {rest : List Stimulus}
    (hin : s.inputs = .edge p :: rest) (hkeep : keepsHeldByte p s) (hrst : p.rst = false) (hov : s.ov = true)
    (hready : p.outReady = true) (hvalid : p.inValid = true)
    (hbyte : byteIn hasRaw p.inData p.inEos
      (takeResult { s with inputs := rest, held := heldAfterEdge p s }) = .next t) :
    ∃ fmt, stepWith hasRaw s = .next { t with fmt := fmt } := by
  obtain ⟨fmt, hwrite⟩ := applyEvents_optional_write hasRaw p.cfgWe p.cfgAddr p.cfgWdata t
  have hevents : edgeEvents p s = .take :: .byteIn p.inData p.inEos ::
      (if p.cfgWe = true then [.cfgWrite p.cfgAddr p.cfgWdata] else []) := by
    simp [edgeEvents_of_no_reset s hrst, hov, hready, hvalid]
  rw [stepWith_of_edge hin (changesHeldByte_eq_false.mpr hkeep), hevents]
  exact ⟨fmt, applyEvents_cons.mpr ⟨_, rfl, applyEvents_cons.mpr ⟨t, hbyte, hwrite⟩⟩⟩

end Sys2Proof.Machine

namespace Sys2Proof.Proofs

open Sys2Proof Sys2Proof.Machine

/-- Settles O37: at an edge without reset every selected event occurs where it is enabled, so sent singly they take one
step each and lead to the same block. -/
theorem clockEdgeIsTakeThenByteThenWrite : Obligations.ClockEdgeIsTakeThenByteThenWrite := by
  intro hasRaw p s rest hin hkeep
  refine ⟨⟨rfl, rfl⟩, fun hrst => ?_, fun hrst => ?_⟩
  · rw [stepWith_edge_reset hin hkeep hrst]
    exact (stepWith_of_enabled (s := { s with inputs := .event .reset :: rest }) rfl rfl).symm
  · rw [← edgeEvents_of_no_reset s hrst]
    let start : State := { s with inputs := rest, held := heldAfterEdge p s }
    obtain ⟨t, ht⟩ := applyEvents_total hasRaw (edgeEvents p s) start
    have hrun : Occurs hasRaw (edgeEvents p s) start t := occurs_edgeEvents rfl ht
    obtain ⟨held, hsingly⟩ := hrun.runWith_singly rest s.held
    have hrest : t.inputs = rest := hrun.inputs_eq
    refine ⟨t, _, (stepWith_of_edge hin (changesHeldByte_eq_false.mpr hkeep)).trans ht, hsingly, ?_⟩
    rw [← hrest]

/-- Settles O38: a pending result stands at CNT 0, so the byte after the Take is byte 0 and completes nothing. -/
theorem takeNeverMeetsACompletingByte : Obligations.TakeNeverMeetsACompletingByte := by
  intro hasRaw p s rest hin hkeep hinv hrst hov hready hvalid
  have hcnt : s.cnt = 0#3 := hinv.pending_at_boundary hov
  let u : State := takeResult { s with inputs := rest, held := heldAfterEdge p s }
  have hucnt : u.cnt = 0#3 := hcnt
  have hbefore : u.cnt ≠ 7#3 := by rw [hucnt]; decide
  cases heos : p.inEos with
  | false =>
    have hbyte : byteIn hasRaw p.inData p.inEos u = .next (storeByte p.inData u) :=
      heos ▸ byteIn_store hbefore
    obtain ⟨fmt, hstep⟩ := stepWith_edge_take_byte hin hkeep hrst hov hready hvalid hbyte
    have hfirst : (u.writeFB p.inData).fb[0] = p.inData := by rw [State.writeFB_get, hucnt]; rfl
    exact ⟨_, hstep, rfl, fun _ => ⟨rfl, by simp [hucnt], hfirst, rfl⟩, nofun⟩
  | true =>
    have hbyte : byteIn hasRaw p.inData p.inEos u = .next (endRun p.inData u) :=
      heos ▸ byteIn_endRun hbefore
    obtain ⟨fmt, hstep⟩ := stepWith_edge_take_byte hin hkeep hrst hov hready hvalid hbyte
    exact ⟨_, hstep, rfl, nofun, fun _ => ⟨rfl, rfl, by simp [hucnt, malformedLen]⟩⟩

/-- Settles O39: the edge is the completing byte and then the write, so the decode reads FMT before it is written. -/
theorem sameEdgeWriteComesAfterTheDecode : Obligations.SameEdgeWriteComesAfterTheDecode := by
  intro p s rest hin hkeep hov hcnt hrst hvalid hwe haddr
  have hevents : edgeEvents p s = [.byteIn p.inData p.inEos, .cfgWrite 0#2 p.cfgWdata] := by
    simp [edgeEvents_of_no_reset s hrst, hov, hvalid, hwe, haddr]
  let start : State := { s with inputs := rest, held := heldAfterEdge p s }
  let u : State := (start.emit (decodeFrame s.fmt (s.fb.push p.inData))).closeFrame
  have hbyte : byteIn true p.inData p.inEos start = .next u := by
    rw [byteIn_complete (by exact hcnt), completeFrame_eq, State.layout_present]
  have hboth : applyEvents true (edgeEvents p s) start = .next (u.cfgStore true 0#2 p.cfgWdata) := by
    rw [hevents]
    exact applyEvents_cons.mpr ⟨u, hbyte, rfl⟩
  exact ⟨_, (stepWith_of_edge hin (changesHeldByte_eq_false.mpr hkeep)).trans hboth, rfl, rfl, rfl,
    congrArg (decodeFrame s.fmt) (push_eq_frame s.fb p.inData)⟩

end Sys2Proof.Proofs
end

section
/-! PROOFS. A result that is not taken (R52, R244): what no quiet stimulus moves, for any number of steps. -/

namespace Sys2Proof.Machine

/-- From `s` to `t` the block waits for its host: the result of `s` is pending and no byte has been accepted (R244). -/
structure State.Waits (s t : State) : Prop where
  ov_eq : t.ov = true
  res_eq : t.res = s.res
  cnt_eq : t.cnt = s.cnt
  fb_eq : t.fb = s.fb
  taken_eq : t.taken = s.taken

theorem State.Waits.refl {s : State} (hov : s.ov = true) : s.Waits s := ⟨hov, rfl, rfl, rfl, rfl⟩

theorem State.Waits.trans {s t u : State} (hst : s.Waits t) (htu : t.Waits u) : s.Waits u where
  ov_eq := htu.ov_eq
  res_eq := htu.res_eq.trans hst.res_eq
  cnt_eq := htu.cnt_eq.trans hst.cnt_eq
  fb_eq := htu.fb_eq.trans hst.fb_eq
  taken_eq := htu.taken_eq.trans hst.taken_eq

/-- Waiting does not turn on what the host sends or holds. -/
theorem State.Waits.of_withHost {s t : State} {inputs : List Stimulus} {held : Option (Byte × Bool)}
    (h : { s with inputs := inputs, held := held }.Waits t) : s.Waits t :=
  ⟨h.ov_eq, h.res_eq, h.cnt_eq, h.fb_eq, h.taken_eq⟩

/-- With a result pending no byte is accepted, and an access to the configuration port leaves the block waiting (R52,
R174, R175). -/
theorem applyEvent_waits {hasRaw : Bool} {e : Event} {s t : State} (hov : s.ov = true) (hen : enabled e s = true)
    (htake : e ≠ .take) (hreset : e ≠ .reset) (h : applyEvent hasRaw e s = .next t) : s.Waits t := by
  cases e with
  | byteIn d eos => exact absurd (hov.symm.trans (ov_of_byteIn hen)) nofun
  | take => exact absurd rfl htake
  | cfgWrite a v => cases h; exact ⟨by simp [hov], by simp, by simp, by simp, by simp⟩
  | cfgRead a => cases h; exact ⟨hov, rfl, rfl, rfl, rfl⟩
  | reset => exact absurd rfl hreset

/-- Events in a row, none of them Take or Reset, leave a block with a pending result waiting. -/
theorem Occurs.waits {hasRaw : Bool} {es : List Event} {s t : State} (hrun : Occurs hasRaw es s t)
    (hov : s.ov = true) (htake : .take ∉ es) (hreset : .reset ∉ es) : s.Waits t := by
  induction hrun with
  | nil => exact .refl hov
  | cons hen hstep _ ih =>
    obtain ⟨hnotake, htake'⟩ := List.ne_and_not_mem_of_not_mem_cons htake
    obtain ⟨hnoreset, hreset'⟩ := List.ne_and_not_mem_of_not_mem_cons hreset
    have hfirst := applyEvent_waits hov hen hnotake.symm hnoreset.symm hstep
    exact hfirst.trans (ih hfirst.ov_eq htake' hreset')

/-- A quiet event is neither Take nor Reset (R244). -/
theorem quiet_event {e : Event} (h : (Stimulus.event e).quiet = true) : e ≠ .take ∧ e ≠ .reset := by
  cases e with
  | take => cases h
  | reset => cases h
  | byteIn d eos => exact ⟨nofun, nofun⟩
  | cfgWrite a v => exact ⟨nofun, nofun⟩
  | cfgRead a => exact ⟨nofun, nofun⟩

/-- A quiet edge selects neither Take nor Reset (R240, R244). -/
theorem quiet_edge {p : Pins} (h : (Stimulus.edge p).quiet = true) (s : State) :
    .take ∉ edgeEvents p s ∧ .reset ∉ edgeEvents p s := by
  obtain ⟨hrst, hbusy⟩ : p.rst = false ∧ p.outReady = false := by simpa [Stimulus.quiet] using h
  exact ⟨by simp [take_mem_edgeEvents, hbusy], by simp [reset_mem_edgeEvents, hrst]⟩

/-- A step uses the host's stimuli from the front (R12). -/
theorem stepWith_inputs_suffix {hasRaw : Bool} {s t : State} (h : stepWith hasRaw s = .next t) :
    t.inputs <:+ s.inputs := by
  rcases stepWith_cases h with ⟨-, rfl⟩ | ⟨e, rest, -, -, rfl⟩ | ⟨e, rest, hin, -, hstep⟩ | ⟨p, rest, hin, -, hstep⟩
  · exact List.suffix_rfl
  · exact List.suffix_rfl
  · rw [hin, applyEvent_inputs hstep]
    exact List.suffix_cons _ rest
  · rw [hin, (occurs_edgeEvents (s := s) (by rfl) hstep).inputs_eq]
    exact List.suffix_cons _ rest

/-- One step under quiet stimuli leaves a block with a pending result waiting. -/
theorem stepWith_waits {hasRaw : Bool} {s t : State} (hov : s.ov = true) (hquiet : ∀ x ∈ s.inputs, x.quiet = true)
    (h : stepWith hasRaw s = .next t) : s.Waits t := by
  rcases stepWith_cases h with ⟨-, rfl⟩ | ⟨e, rest, -, -, rfl⟩ | ⟨e, rest, hin, hen, hstep⟩ |
    ⟨p, rest, hin, -, hstep⟩
  · exact .refl hov
  · exact .refl hov
  · obtain ⟨htake, hreset⟩ := quiet_event (hquiet (.event e) (by simp [hin]))
    exact (applyEvent_waits (by exact hov) ((enabled_withHost ..).trans hen) htake hreset hstep).of_withHost
  · obtain ⟨htake, hreset⟩ := quiet_edge (hquiet (.edge p) (by simp [hin])) s
    exact ((occurs_edgeEvents (s := s) (by rfl) hstep).waits hov htake hreset).of_withHost

/-- Any number of steps under quiet stimuli leave a block with a pending result waiting (R244). -/
theorem runWith_waits {hasRaw : Bool} (n : Nat) {s t : State} (hov : s.ov = true)
    (hquiet : ∀ x ∈ s.inputs, x.quiet = true) (h : runWith hasRaw n s = .next t) : s.Waits t := by
  induction n generalizing s with
  | zero => cases h; exact .refl hov
  | succ n ih =>
    obtain ⟨u, hstep, hrun⟩ := andThen_next.mp h
    have hfirst := stepWith_waits hov hquiet hstep
    have hquiet' : ∀ x ∈ u.inputs, x.quiet = true := fun x hx =>
      hquiet x ((stepWith_inputs_suffix hstep).subset hx)
    exact hfirst.trans (ih hfirst.ov_eq hquiet' hrun)

end Sys2Proof.Machine

namespace Sys2Proof.Proofs

open Sys2Proof Sys2Proof.Machine

/-- Settles O51, by induction on the number of steps: a quiet step leaves the block waiting and the later stimuli
quiet. -/
theorem aResultNotTakenHoldsTheInput : Obligations.AResultNotTakenHoldsTheInput := by
  refine ⟨fun hasRaw s d eos hov => eventStep_eq_none_iff.mpr (enabled_eq_false_iff.mpr (.inl ⟨⟨d, eos, rfl⟩, hov⟩)),
    fun hasRaw n s t hov hquiet h => ?_⟩
  obtain ⟨hov', hres, hcnt, hfb, htaken⟩ := runWith_waits n hov hquiet h
  exact ⟨hov', hres, hcnt, hfb, htaken⟩

end Sys2Proof.Proofs
end

section
/-! PROOFS. Reset (R230), and the layout a frame is decoded under (R171, R241). -/

namespace Sys2Proof.Machine

/-- After Reset every register of the configuration space reads 0x00 (R230). -/
theorem State.cfgByte_resetBlock (hasRaw : Bool) (s : State) (a : CfgAddr) :
    s.resetBlock.cfgByte hasRaw a = 0x00#8 := by
  unfold State.cfgByte
  split_ifs
  · simp [State.layout]
  · simp
  · rfl

end Sys2Proof.Machine

namespace Sys2Proof.Proofs

open Sys2Proof Sys2Proof.Machine

/-- Settles O27: Reset occurs in every state, and what it leaves reads 0 on the bus and at both registers. -/
theorem resetClearsTheBlock : Obligations.ResetClearsTheBlock := by
  intro hasRaw s rest hin
  exact ⟨_, stepWith_of_enabled hin rfl, rfl, fun k hk => by simp, Res.pack_zero,
    State.cfgByte_resetBlock .., State.cfgByte_resetBlock ..⟩

/-- Settles O31: the write comes first and sets FMT, and the completing byte reads FMT where the write left it. -/
theorem layoutIsSampledAtCompletion : Obligations.LayoutIsSampledAtCompletion := by
  intro s v d eos rest hin hov hcnt
  let u : State := { s with inputs := .event (.byteIn d eos) :: rest, held := none, fmt := v.getLsbD 0 }
  have hwrite : stepWith true s = .next u := stepWith_of_enabled hin rfl
  have hbyte := ((stepWith_byteIn (hasRaw := true) (s := u) hov rfl).trans (byteIn_complete hcnt)).trans
    (completeFrame_eq ..)
  rw [State.layout_present, push_eq_frame] at hbyte
  exact ⟨_, andThen_next.mpr ⟨u, hwrite, andThen_next.mpr ⟨_, hbyte, rfl⟩⟩, rfl, rfl, rfl, rfl⟩

/-- Settles O46: after reset nothing is pending, RES is all 0, and the host has been handed nothing. -/
theorem invariantHoldsAtReset : Obligations.InvariantHoldsAtReset := fun _ =>
  { pending_at_boundary := nofun
    fmt_wired := fun _ => rfl
    res_shape := .inl ⟨rfl, rfl⟩
    taken_shape := nofun
    held_waits := nofun }

end Sys2Proof.Proofs
end
